-- ==== Sys2Proof/Word.lean ====
section
/-! DEFINITION. Widths of RX8035-CODEC: the byte, the register index, the slave address, the selector code. -/

namespace Sys2Proof

/-- A byte, the width of every register (00_scope.md R5). -/
abbrev Byte := BitVec 8

/-- A register index 0x00 to 0x0F (20_memory.md R30). No other register exists. -/
abbrev RegIndex := Fin 16

/-- A 7-bit bus slave address (10_state.md R13). -/
abbrev SlaveAddr := BitVec 7

/-- A 3-bit selector code of the constant-time-interrupt mode (10_state.md R18). -/
abbrev ModeCode := BitVec 3

end Sys2Proof
end

