-- ==== Sys2Proof/Syntax.lean ====
section
/-! DEFINITION. The commands of RX8035-CODEC, the command port they are presented on, and the host's
pseudo-operations. -/

namespace Sys2Proof

/-- The eighteen commands, one constructor per row of the operation-select map (30_encoding.md R62). An operand
written `name?` in the spec is an `Option` (00_scope.md R6); integer operands are mathematical integers (R5). -/
inductive Instr where
  /-- BCD2DEC `b` (40_codec.md R81). -/
  | bcd2dec (b : Byte)
  /-- DEC2BCD `d` (40_codec.md R82). -/
  | dec2bcd (d : Int)
  /-- WDAY `date`, `month`, `year4` (40_codec.md R85). -/
  | wday (date month year4 : Int)
  /-- OFSDEC `b` (40_codec.md R87). -/
  | ofsdec (b : Byte)
  /-- OFSENC `v` (40_codec.md R89). -/
  | ofsenc (v : Int)
  /-- REGADDR `idx` (40_codec.md R90). -/
  | regaddr (idx : BitVec 4)
  /-- INIT `addr?` (43_composer.md R133). -/
  | init (addr : Option SlaveAddr)
  /-- RDDT (41_datetime.md R101). -/
  | rddt
  /-- WRDT `seconds?`, `minutes?`, `hours?`, `date?`, `month?`, `year?`, `weekday?` (41_datetime.md R104). -/
  | wrdt (seconds minutes hours date month year weekday : Option Int)
  /-- OFSGET (42_offset.md R120). -/
  | ofsget
  /-- OFSSET `v` (42_offset.md R122). -/
  | ofsset (v : Int)
  /-- CTMODE `mode?` (43_composer.md R136). -/
  | ctmode (mode : Option ModeCode)
  /-- DALMSET `hours?`, `minutes?` (44_alarms.md R151). -/
  | dalmset (hours minutes : Option Int)
  /-- DALMCLR (44_alarms.md R152). -/
  | dalmclr
  /-- DALMRST (44_alarms.md R153). -/
  | dalmrst
  /-- WALMSET `hours?`, `minutes?`, `wdmask` (44_alarms.md R155). -/
  | walmset (hours minutes : Option Int) (wdmask : BitVec 7)
  /-- WALMCLR (44_alarms.md R156). -/
  | walmclr
  /-- WALMRST (44_alarms.md R157). -/
  | walmrst
  deriving DecidableEq, Repr

/-- An operand port with a present bit: the pair (present bit, value) of 00_scope.md R6. -/
structure OptPort (α : Type) where
  present : Bool
  value : α
  deriving DecidableEq, Repr

/-- The command port: the operation select `op[4:0]` and the operand ports, presented in parallel (30_encoding.md
R60, R61). A command reads its own ports; all others are ignored. -/
structure CommandPort where
  op : BitVec 5
  b : Byte
  d : Int
  idx : BitVec 4
  year4 : Int
  seconds : OptPort Int
  minutes : OptPort Int
  hours : OptPort Int
  date : OptPort Int
  month : OptPort Int
  year : OptPort Int
  weekday : OptPort Int
  v : Int
  mode : OptPort ModeCode
  wdmask : BitVec 7
  addr : OptPort SlaveAddr
  deriving DecidableEq, Repr

/-- The software entry points of the source that the host expands to one command each (30_encoding.md R67). The
tuple of WRTUP and of WRNOW's time source is in the order year, month, date, weekday, hours, minutes, seconds. -/
inductive PseudoOp where
  /-- WRTUP (41_datetime.md R107), all seven elements present. Whether an element may itself be absent is open
  (91_not_in_source.md N14): this type cannot express it (DESIGN CHOICE, log 23). -/
  | wrtup (y mo d wd h mi s : Int)
  /-- WRNOW, with what the external time source returned, a 4-digit year first (41_datetime.md R108). -/
  | wrnow (year4 mo d wd h mi s : Int)
  /-- OFFSET, with or without a value (42_offset.md R121). -/
  | offset (value : Option Int)
  /-- DAILY_ALARM (44_alarms.md R154). -/
  | dailyAlarm (hours minutes : Option Int)
  /-- WEEKLY_ALARM (44_alarms.md R158). -/
  | weeklyAlarm (hours minutes : Option Int) (weekdays : Option (BitVec 7))
  /-- CONSTRUCT: reset, then INIT (30_encoding.md R67). -/
  | construct (address : Option SlaveAddr)
  deriving DecidableEq, Repr

end Sys2Proof
end

