-- ==== Sys2Proof/Decode.lean ====
section
/-! DEFINITION. The decoder of the command port, total, refusing a reserved operation-select code by name, and
the encoder. -/

namespace Sys2Proof

/-- Why a bundle of port values is no command. -/
inductive DecodeError where
  /-- A reserved operation-select code (30_encoding.md R64). -/
  | reservedOp (op : BitVec 5)
  deriving DecidableEq, Repr

/-- The operand of an optional port: absent when the present bit is 0 (00_scope.md R6). -/
def OptPort.operand {α : Type} (p : OptPort α) : Option α := if p.present then some p.value else none

/-- The port value of an optional operand; the value lines of an absent one are driven to `zero`. -/
def optPort {α : Type} (zero : α) : Option α → OptPort α
  | none => { present := false, value := zero }
  | some v => { present := true, value := v }

/-- The operation-select code of each command (30_encoding.md R62). -/
def Instr.opcode : Instr → BitVec 5
  | .bcd2dec _ => 0x00
  | .dec2bcd _ => 0x01
  | .wday _ _ _ => 0x02
  | .ofsdec _ => 0x03
  | .ofsenc _ => 0x04
  | .regaddr _ => 0x05
  | .init _ => 0x08
  | .rddt => 0x09
  | .wrdt _ _ _ _ _ _ _ => 0x0A
  | .ofsget => 0x0B
  | .ofsset _ => 0x0C
  | .ctmode _ => 0x0D
  | .dalmset _ _ => 0x10
  | .dalmclr => 0x11
  | .dalmrst => 0x12
  | .walmset _ _ _ => 0x14
  | .walmclr => 0x15
  | .walmrst => 0x16

/-- The command on the port (30_encoding.md R60 to R62). Only the ports of the selected command are read. WDAY's
`date` and `month` are "always present" (R61), so their present bits are not consulted (log 14). A code the map
does not list is reserved (R64). -/
def decode (p : CommandPort) : Except DecodeError Instr :=
  match p.op.toNat with
  | 0x00 => .ok (.bcd2dec p.b)
  | 0x01 => .ok (.dec2bcd p.d)
  | 0x02 => .ok (.wday p.date.value p.month.value p.year4)
  | 0x03 => .ok (.ofsdec p.b)
  | 0x04 => .ok (.ofsenc p.v)
  | 0x05 => .ok (.regaddr p.idx)
  | 0x08 => .ok (.init p.addr.operand)
  | 0x09 => .ok .rddt
  | 0x0A => .ok (.wrdt p.seconds.operand p.minutes.operand p.hours.operand p.date.operand p.month.operand
      p.year.operand p.weekday.operand)
  | 0x0B => .ok .ofsget
  | 0x0C => .ok (.ofsset p.v)
  | 0x0D => .ok (.ctmode p.mode.operand)
  | 0x10 => .ok (.dalmset p.hours.operand p.minutes.operand)
  | 0x11 => .ok .dalmclr
  | 0x12 => .ok .dalmrst
  | 0x14 => .ok (.walmset p.hours.operand p.minutes.operand p.wdmask)
  | 0x15 => .ok .walmclr
  | 0x16 => .ok .walmrst
  | _ => .error (.reservedOp p.op)

/-- A port with operation select `op`, every operand line 0 and every present bit 0. -/
def CommandPort.blank (op : BitVec 5) : CommandPort where
  op := op
  b := 0
  d := 0
  idx := 0
  year4 := 0
  seconds := optPort 0 none
  minutes := optPort 0 none
  hours := optPort 0 none
  date := optPort 0 none
  month := optPort 0 none
  year := optPort 0 none
  weekday := optPort 0 none
  v := 0
  mode := optPort 0 none
  wdmask := 0
  addr := optPort 0 none

/-- The port values that present a command; ports the command does not read are 0 (30_encoding.md R61, R62). -/
def encode (i : Instr) : CommandPort :=
  match i with
  | .bcd2dec b => { CommandPort.blank i.opcode with b := b }
  | .dec2bcd d => { CommandPort.blank i.opcode with d := d }
  | .wday date month year4 =>
      { CommandPort.blank i.opcode with date := optPort 0 (some date), month := optPort 0 (some month), year4 := year4 }
  | .ofsdec b => { CommandPort.blank i.opcode with b := b }
  | .ofsenc v => { CommandPort.blank i.opcode with v := v }
  | .regaddr idx => { CommandPort.blank i.opcode with idx := idx }
  | .init addr => { CommandPort.blank i.opcode with addr := optPort 0 addr }
  | .rddt => CommandPort.blank i.opcode
  | .wrdt seconds minutes hours date month year weekday =>
      { CommandPort.blank i.opcode with
        seconds := optPort 0 seconds, minutes := optPort 0 minutes, hours := optPort 0 hours,
        date := optPort 0 date, month := optPort 0 month, year := optPort 0 year,
        weekday := optPort 0 weekday }
  | .ofsget => CommandPort.blank i.opcode
  | .ofsset v => { CommandPort.blank i.opcode with v := v }
  | .ctmode mode => { CommandPort.blank i.opcode with mode := optPort 0 mode }
  | .dalmset hours minutes =>
      { CommandPort.blank i.opcode with hours := optPort 0 hours, minutes := optPort 0 minutes }
  | .dalmclr => CommandPort.blank i.opcode
  | .dalmrst => CommandPort.blank i.opcode
  | .walmset hours minutes wdmask =>
      { CommandPort.blank i.opcode with
        hours := optPort 0 hours, minutes := optPort 0 minutes, wdmask := wdmask }
  | .walmclr => CommandPort.blank i.opcode
  | .walmrst => CommandPort.blank i.opcode

/-- The port values that a word of spec/opcode_table.json stands for: its bits 4:0 drive `op[4:0]`, and no other bit
drives any port, so every operand line and every present bit is 0 (log 9). -/
def tablePort (_nbits w : Nat) : CommandPort := CommandPort.blank (BitVec.ofNat 5 w)

/-- The instruction the decoder reads from a table word. -/
def decodeTableWord (nbits w : Nat) : Option Instr := (decode (tablePort nbits w)).toOption

end Sys2Proof
end

