-- ==== Sys2Proof/Config.lean ====
section
/-! DEFINITION. What an implementation fixes (the record CFG of 00_scope.md R4) and the one free value: the
environment's behaviour at the transfers that no scripted event answers. -/

namespace Sys2Proof

/-- How INIT's defensive clear is put on the bus (00_scope.md R4, `INIT_CLEAR_SHAPE`; decision D14). -/
inductive ClearShape where
  /-- Two 1-byte writes, index 0x0E then 0x0F: the value R4 gives. -/
  | twoOneByte
  /-- One 2-byte write at index 0x0E: the reading D14 names and does not take. -/
  | oneTwoByte
  deriving DecidableEq, Repr

/-- Which driver variant (00_scope.md R4, `VARIANT`; decision D30): only one is documented. -/
inductive Variant where
  | documented
  deriving DecidableEq, Repr

/-- The configuration record CFG (00_scope.md R4). `N_REGS` = 16 and `REG_BITS` = 8 are the types `RegIndex`
and `Byte`; `CT_OFF` is `Cfg.ctOff`. -/
structure Cfg where
  /-- `SLAVE_DEFAULT`. -/
  slaveDefault : SlaveAddr
  /-- `CENTURY`. -/
  century : Int
  /-- `M_WALE`, weekly-alarm-enable. -/
  mWale : Byte
  /-- `M_DALE`, monthly/daily-alarm-enable. -/
  mDale : Byte
  /-- `M_DBSL`, debounce-length. -/
  mDbsl : Byte
  /-- `M_EDEN`, event-detect-enable. -/
  mEden : Byte
  /-- `M_TEST`, test-mode. -/
  mTest : Byte
  /-- `CT_MASK`, the constant-time-interrupt mode selector. -/
  ctMask : Byte
  /-- `M_BANK`, bank-select/timestamp-flag. -/
  mBank : Byte
  /-- `M_VDET`, voltage-detect. -/
  mVdet : Byte
  /-- `M_XSTP`, oscillator-stop. -/
  mXstp : Byte
  /-- `M_PON`, power-on. -/
  mPon : Byte
  /-- `M_EDFG`, event-detect-function-flag. -/
  mEdfg : Byte
  /-- `M_CTFG`, constant-time-interrupt-function-flag. -/
  mCtfg : Byte
  /-- `M_WAFG`, weekly-alarm-function-flag. -/
  mWafg : Byte
  /-- `M_DAFG`, monthly/daily-alarm-function-flag. -/
  mDafg : Byte
  /-- `CT_2HZ`. -/
  ct2Hz : ModeCode
  /-- `CT_1HZ`. -/
  ct1Hz : ModeCode
  /-- `CT_SEC`. -/
  ctSec : ModeCode
  /-- `CT_MIN`. -/
  ctMin : ModeCode
  /-- `CT_HOUR`. -/
  ctHour : ModeCode
  /-- `CT_MONTH`. -/
  ctMonth : ModeCode
  /-- `ARG_BITS`, the width of a signed integer operand port. -/
  argBits : Nat
  /-- `MIRROR_RESET`. -/
  mirrorReset : Byte
  /-- `INIT_CLEAR_SHAPE`. -/
  clearShape : ClearShape
  /-- `VARIANT`. -/
  variant : Variant
  deriving DecidableEq, Repr

/-- `CT_OFF`, the code with all three bits clear (10_state.md R18). -/
def Cfg.ctOff : ModeCode := 0

/-- The values of 00_scope.md R4. Layout and codes are PRESUMED by the spec itself (decisions D3, D4; log 3);
`argBits` is OPEN there and 32 is a DESIGN CHOICE nothing but `Instr.fitsPorts` reads (log 10). -/
def Cfg.default : Cfg where
  slaveDefault := 0x32
  century := 2000
  mWale := 0x80
  mDale := 0x40
  mDbsl := 0x20
  mEden := 0x10
  mTest := 0x08
  ctMask := 0x07
  mBank := 0x80
  mVdet := 0x40
  mXstp := 0x20
  mPon := 0x10
  mEdfg := 0x08
  mCtfg := 0x04
  mWafg := 0x02
  mDafg := 0x01
  ct2Hz := 2
  ct1Hz := 3
  ctSec := 4
  ctMin := 5
  ctHour := 6
  ctMonth := 7
  argBits := 32
  mirrorReset := 0x00
  clearShape := .twoOneByte
  variant := .documented

/-- The masks of Control1, most significant first under the default layout (10_state.md R17). -/
def Cfg.control1Masks (c : Cfg) : List Byte := [c.mWale, c.mDale, c.mDbsl, c.mEden, c.mTest, c.ctMask]

/-- The masks of Control2, most significant first under the default layout (10_state.md R19). -/
def Cfg.control2Masks (c : Cfg) : List Byte :=
  [c.mBank, c.mVdet, c.mXstp, c.mPon, c.mEdfg, c.mCtfg, c.mWafg, c.mDafg]

/-- The codes of the named modes other than OFF (10_state.md R18). -/
def Cfg.modeCodes (c : Cfg) : List ModeCode := [c.ct2Hz, c.ct1Hz, c.ctSec, c.ctMin, c.ctHour, c.ctMonth]

/-- A mask of exactly one bit. -/
def oneBit (m : Byte) : Bool := m != 0 && (m &&& (m - 1)) == 0

/-- Masks that are pairwise disjoint and fill the byte. -/
def fillByte (ms : List Byte) : Bool :=
  decide (ms.Pairwise fun a b => a &&& b = 0) && ms.foldr (· ||| ·) 0 == 0xFF

/-- The well-formedness a model may assume of CFG (00_scope.md R4; decisions D4, D19). -/
def Cfg.wf (c : Cfg) : Bool :=
  fillByte c.control1Masks && (c.control1Masks.take 5).all oneBit &&
  fillByte c.control2Masks && c.control2Masks.all oneBit &&
  c.modeCodes.all (· != 0) && decide c.modeCodes.Nodup && decide (8 ≤ c.argBits)

/-- The environment's answer to one transfer (20_memory.md R34, R35; 60_exceptions.md R174). -/
inductive Answer where
  /-- The transfer completes. -/
  | done
  /-- The transfer fails; a write has delivered its first `delivered` bytes (decision D26). -/
  | failed (delivered : Nat)
  /-- The transfer never returns (U6); a write has delivered its first `delivered` bytes. -/
  | never (delivered : Nat)
  deriving DecidableEq, Repr, Inhabited

/-- Changes to device registers that the block does not make, oldest first: time advances, flags are set, other masters
write, the device reinterprets written bytes (00_scope.md R8; 20_memory.md R40; U3, U4). -/
abbrev Updates := List (RegIndex × Byte)

/-- What the environment does at one transfer (log 4). -/
structure EnvEvent where
  /-- The changes since the last byte of the transfer before. -/
  drift : Updates
  /-- The device's own changes while the transfer is under way: entry `k` falls between its byte `k` and its byte
  `k + 1` (20_memory.md R39). Entries past the last byte moved do nothing: what changes after it is in the next event's
  `drift`. -/
  within : List Updates
  /-- How the transfer ends. -/
  answer : Answer
  deriving DecidableEq, Repr, Inhabited

/-- One event of the static test-bench device (20_memory.md R47). -/
def EnvEvent.static : EnvEvent := { drift := [], within := [], answer := .done }

/-- FREE VALUE. The environment's event at the `n`-th transfer that the scripted queue does not answer: nothing
constrains it (00_scope.md R8 "oracle"; U3 to U6; log 4). -/
opaque Config.envEvent (n : Nat) : EnvEvent

end Sys2Proof
end

