-- ==== Sys2Proof/Machine/State.lean ====
section
/-! DEFINITION. The state of RX8035-CODEC with its host and its environment, as plain data, and the state after
reset. -/

namespace Sys2Proof.Machine

/-- The operands an ERR_ARG outcome can name (30_encoding.md R63). -/
inductive Field where
  | seconds
  | minutes
  | hours
  | weekday
  | date
  | month
  | year
  deriving DecidableEq, Repr

/-- A DateTime value as RDDT returns it, year first (41_datetime.md R100). The components are integers: nothing
confines them to the calendar ranges (U12). -/
structure DateTime where
  year : Int
  month : Int
  date : Int
  weekday : Int
  hours : Int
  minutes : Int
  seconds : Int
  deriving DecidableEq, Repr

/-- The value an OK outcome carries (30_encoding.md R62, column "result value"). -/
inductive Value where
  | empty
  | int (n : Int)
  | byte (b : Byte)
  | dateTime (t : DateTime)
  deriving DecidableEq, Repr

/-- A command's outcome (00_scope.md R7). -/
inductive CmdOutcome where
  /-- Completed, with a value. -/
  | ok (value : Value)
  /-- INIT completed and found a power anomaly (60_exceptions.md R173). -/
  | warnStatus
  /-- OFSSET or OFSENC declined an out-of-range value (60_exceptions.md R172). -/
  | rejValue
  /-- Invalid argument, naming the field (60_exceptions.md R171). -/
  | errArg (field : Field)
  /-- A bus transfer failed (60_exceptions.md R174). -/
  | errBus
  /-- Reserved code, second INIT, or a device command before INIT (60_exceptions.md R186). -/
  | errOp
  deriving DecidableEq, Repr

/-- The register spans the commands transfer, each a constant index and byte count (20_memory.md R32, R38). No other
transfer exists, so none runs past index 0x0F (R37). -/
inductive Span where
  /-- The seven datetime registers, 0x00. -/
  | datetime
  /-- The digital trim offset, 0x07. -/
  | offset
  /-- Weekly-alarm minute, hour, weekday, 0x08. -/
  | weeklyAlarm
  /-- Daily-alarm minute, hour, 0x0B. -/
  | dailyAlarm
  /-- Control1 alone, 0x0E. -/
  | control1
  /-- The Control block, Control1 and Control2, 0x0E. -/
  | control
  /-- Control2 alone, 0x0F. -/
  | control2
  deriving DecidableEq, Repr

/-- The two bus operations (20_memory.md R33). -/
inductive TransferKind where
  | read
  | write
  deriving DecidableEq, Repr

/-- One bus transfer as observed (00_scope.md R9): kind, slave address, wire register address, byte count, and the
bytes: those presented by a write, those returned by a read (none when the read fails or never returns). -/
structure Transfer where
  kind : TransferKind
  slave : SlaveAddr
  wire : Byte
  count : Nat
  bytes : List Byte
  deriving DecidableEq, Repr

/-- The contents of the device register space (20_memory.md R30): (index, byte) pairs in the canonical form of
`Memory.wf`. -/
abbrev Memory := List Host.Cell

/-- The whole machine. -/
structure State where
  /-- The parameters of 00_scope.md R4, constant while the machine runs (log 20). -/
  cfg : Cfg
  /-- The register mirror `x[0..15]` (10_state.md R10). -/
  x : Vector Byte 16
  /-- The scratch byte, which no rule reads or writes (10_state.md R12). -/
  scratch : Byte
  /-- The bus slave address; without meaning while `inited` is false (10_state.md R13; log 1). -/
  sa : SlaveAddr
  /-- Set by INIT as its first action (10_state.md R14). -/
  inited : Bool
  /-- The device status error flag (10_state.md R16). -/
  sterr : Bool
  /-- A transfer of the last command never returned (60_exceptions.md R174; log 7). -/
  hung : Bool
  /-- The device register space (20_memory.md R30). -/
  mem : Memory
  /-- The host's command pointer (10_state.md R15). -/
  cp : Nat
  /-- The host's list of commands (00_scope.md R9). -/
  program : List CommandPort
  /-- The model's own: the environment's behaviour at the next transfers, oldest first (log 4). -/
  env : List EnvEvent
  /-- The model's own: how many free environment events have been drawn (log 4). -/
  draws : Nat
  /-- The model's own: the bus transfers observed, oldest first (00_scope.md R9; log 15). -/
  bus : List Transfer
  /-- The model's own: the outcomes returned, oldest first (00_scope.md R9; log 15). -/
  outcomes : List CmdOutcome
  deriving DecidableEq, Repr

/-- Why the machine stops with a fault. -/
inductive Fault where
  /-- Raised by `step` when the last command is still waiting for a transfer that never returns: "the command has no
  outcome and the run does not continue" (93_implementation_defined.md U6). Safe. -/
  | transferNeverReturns
  deriving DecidableEq, Repr

/-- Why the machine has no meaning for a command. -/
inductive Refusal where
  /-- No command of this model answers so. Safe. -/
  | notModelled (mnemonic : String)
  /-- Raised by DEC2BCD outside 0..99, to which the spec gives no meaning (40_codec.md R82; U1, D22). Safe. -/
  | dec2bcdOutsideDomain (d : Int)
  /-- Raised by WDAY outside its domain, to which the spec gives no meaning (40_codec.md R85; U2, D22). Safe. -/
  | wdayOutsideDomain (date month year4 : Int)
  deriving DecidableEq, Repr

/-- The state after reset for given parameters (10_state.md R22, 70_reset_and_hazards.md R200): nothing is issued on
the bus, no command is loaded, the device holds what `Memory.unlisted` says (log 5). -/
def State.resetWith (c : Cfg) : State where
  cfg := c
  x := Vector.replicate 16 c.mirrorReset
  scratch := c.mirrorReset
  sa := 0
  inited := false
  sterr := false
  hung := false
  mem := []
  cp := 0
  program := []
  env := []
  draws := 0
  bus := []
  outcomes := []

/-- The state after reset, with the parameter values of 00_scope.md R4. -/
def State.reset : State := State.resetWith Cfg.default

end Sys2Proof.Machine
end

