-- ==== Sys2Proof/Machine/Flags.lean ====
section
/-! DEFINITION. The control-register composer: field functions on bytes and every flag computation of Control1 and
Control2 (43_composer.md). -/

namespace Sys2Proof.Machine

/-- `FSET(r, m)`: set every bit of the field (43_composer.md R130). -/
def fset (r m : Byte) : Byte := r ||| m

/-- `FCLR(r, m)`: clear every bit of the field (43_composer.md R130). -/
def fclr (r m : Byte) : Byte := r &&& ~~~m

/-- `FMUX(r, m, f)`: replace the field by the bits of `f` under `m` (43_composer.md R130). -/
def fmux (r m f : Byte) : Byte := (r &&& ~~~m) ||| (f &&& m)

/-- `FTST(r, m)`: any bit of the field is set (43_composer.md R130). -/
def ftst (r m : Byte) : Bool := (r &&& m) != 0

/-- `STATCHK(c2)`: any of PON, XSTP, VDET is set in a Control2 byte (43_composer.md R132). -/
def statChk (c : Cfg) (c2 : Byte) : Bool := ftst c2 (c.mPon ||| c.mXstp ||| c.mVdet)

/-- `VDETCLR(c2)` (43_composer.md R137). -/
def vdetClr (c : Cfg) (c2 : Byte) : Byte := fclr c2 c.mVdet

/-- The bits of `code`, low to high, on the set bits of `mask` from position `pos` up, for `fuel` positions. -/
def depositBits (mask : Byte) (fuel pos : Nat) (code : Byte) : Byte :=
  match fuel with
  | 0 => 0
  | fuel + 1 =>
    if mask.getLsbD pos then
      ((code &&& 1) <<< pos) ||| depositBits mask fuel (pos + 1) (code >>> 1)
    else depositBits mask fuel (pos + 1) code

/-- `CTPLACE(code)`: the code's bits at the positions of `CT_MASK`, lowest at lowest, 0 elsewhere (43_composer.md
R134, 10_state.md R18). -/
def ctPlace (c : Cfg) (code : ModeCode) : Byte := depositBits c.ctMask 8 0 (code.setWidth 8)

/-- `CTSEL(c1, mode?)`: only 1HZ and 2HZ set the field, everything else clears it (43_composer.md R135). -/
def ctSel (c : Cfg) (c1 : Byte) (mode : Option ModeCode) : Byte :=
  match mode with
  | some code => if code = c.ct1Hz ∨ code = c.ct2Hz then fmux c1 c.ctMask (ctPlace c code) else fclr c1 c.ctMask
  | none => fclr c1 c.ctMask

/-- The enable mask of the daily alarm (43_composer.md R138). -/
def dailyEnable (c : Cfg) : Byte := c.mDale

/-- The function-flag mask of the daily alarm (43_composer.md R138). -/
def dailyFlag (c : Cfg) : Byte := c.mDafg

/-- The enable mask of the weekly alarm (43_composer.md R138). -/
def weeklyEnable (c : Cfg) : Byte := c.mWale

/-- The function-flag mask of the weekly alarm (43_composer.md R138). -/
def weeklyFlag (c : Cfg) : Byte := c.mWafg

/-- `ARM(c1, c2, en, fg)` (43_composer.md R138). -/
def arm (c1 c2 en fg : Byte) : Byte × Byte := (fset c1 en, fclr c2 fg)

/-- `DISARM(c1, c2, en, fg)` (43_composer.md R138). -/
def disarm (c1 c2 en fg : Byte) : Byte × Byte := (fclr c1 en, fclr c2 fg)

end Sys2Proof.Machine
end

