-- ==== Sys2Proof/Machine/Operands.lean ====
section
/-! DEFINITION. Data formats and operand forms: BCD, weekday, trim offset, wire address, masks, validation and
encoding of datetime and alarm operands (30_encoding.md Part A, 40_codec.md, 41_datetime.md R100 to R103,
44_alarms.md R150). -/

namespace Sys2Proof.Machine

/-- `bcd_to_dec` (40_codec.md R81): total on bytes, no validity check. -/
def bcd2dec (b : Byte) : Int := ((((b >>> 4) &&& 0xF).toNat * 10 + (b &&& 0xF).toNat : Nat) : Int)

/-- `dec_to_bcd` (40_codec.md R82), for 0 to 99. -/
def dec2bcd (d : Int) : Byte := (BitVec.ofInt 8 (d / 10) <<< 4) ||| BitVec.ofInt 8 (d % 10)

/-- The domain of `dec_to_bcd` (40_codec.md R82). -/
def dec2bcdDomain (d : Int) : Bool := decide (0 ≤ d ∧ d ≤ 99)

/-- `WDAYF` (40_codec.md R84, without the printed "- 1": 90_conflicts.md C1); 0 is Sunday. -/
def wdayF (date month year4 : Int) : Int :=
  let m := if month < 3 then month + 12 else month
  let y := if month < 3 then year4 - 1 else year4
  (date + (13 * m + 8) / 5 + y + y / 4 - y / 100 + y / 400) % 7

/-- The `require` of WDAY (40_codec.md R85). -/
def wdayDomain (date month year4 : Int) : Bool :=
  decide (1 ≤ month ∧ month ≤ 12 ∧ 1 ≤ date ∧ date ≤ 31 ∧ 1 ≤ year4)

/-- The offset decode (40_codec.md R87): bit 7 discarded, then the source's signed 7-bit reading. -/
def ofsDec (b : Byte) : Int :=
  let u := b &&& 0x7F
  if u.toNat < 0x40 then (u.toNat : Int) else -((u ^^^ 0x7F).toNat : Int) - 1

/-- The range OFSENC and OFSSET accept (40_codec.md R89). -/
def ofsInRange (v : Int) : Bool := decide (-62 ≤ v ∧ v ≤ 63)

/-- `v & 0x7F` on the two's-complement form of `v` (40_codec.md R89). -/
def ofsEnc (v : Int) : Byte := BitVec.ofInt 8 v &&& 0x7F

/-- `REGADDR(idx) = (idx << 4) & 0xFF` (40_codec.md R90). -/
def regAddr (idx : BitVec 4) : Byte := (idx.setWidth 8 <<< 4) &&& 0xFF

/-- The mask table, by ascending index 0x00 to 0x06 (30_encoding.md R54). -/
def maskTable : List Byte := [0x7F, 0x7F, 0x3F, 0x07, 0x3F, 0x1F, 0xFF]

/-- `MASKED(i, byte)` (40_codec.md R91); an index the table does not have masks nothing. -/
def masked (i : Nat) (b : Byte) : Byte := b &&& maskTable.getD i 0xFF

/-- One field of the read path: mask, then decode (41_datetime.md R100). -/
def decodeField (i : Nat) (r : List Byte) : Int := bcd2dec (masked i (r.getD i 0))

/-- `DTDEC(r[0..6])` (41_datetime.md R100). -/
def dtDec (r : List Byte) : DateTime where
  year := decodeField 6 r
  month := decodeField 5 r
  date := decodeField 4 r
  weekday := decodeField 3 r
  hours := decodeField 2 r
  minutes := decodeField 1 r
  seconds := decodeField 0 r

/-- A field that must be present and in range (41_datetime.md R102). -/
def requiredField (f : Field) (lo hi : Int) : Option Int → Except Field Int
  | none => .error f
  | some v => if v < lo ∨ hi < v then .error f else .ok v

/-- A field that may be absent, and is in range when present (41_datetime.md R102, 44_alarms.md R150). -/
def optionalField (f : Field) (lo hi : Int) : Option Int → Except Field (Option Int)
  | none => .ok none
  | some v => if v < lo ∨ hi < v then .error f else .ok (some v)

/-- `DTVALID` (41_datetime.md R102), in its order (decision D12): the validated fields with the weekday as supplied,
or the first failing field. -/
def dtValid (seconds minutes hours date month year weekday : Option Int) :
    Except Field (DateTime × Option Int) := do
  let s ← requiredField .seconds 0 59 seconds
  let mi ← requiredField .minutes 0 59 minutes
  let h ← requiredField .hours 0 23 hours
  let d ← requiredField .date 1 31 date
  let mo ← requiredField .month 1 12 month
  let y ← requiredField .year 0 99 year
  let wd ← optionalField .weekday 0 6 weekday
  return ({ year := y, month := mo, date := d, weekday := 0, hours := h, minutes := mi, seconds := s }, wd)

/-- The weekday WRDT writes: the supplied one, or the computed one (41_datetime.md R104, 40_codec.md R86). -/
def wrdtWeekday (c : Cfg) (t : DateTime) (weekday : Option Int) : Int :=
  match weekday with
  | some wd => wd
  | none => wdayF t.date t.month (c.century + t.year)

/-- `DTENC` (41_datetime.md R103): seven bytes in register order, the 24-hour bit set. -/
def dtEnc (t : DateTime) : List Byte :=
  [dec2bcd t.seconds, dec2bcd t.minutes, dec2bcd t.hours ||| 0x80, dec2bcd t.weekday, dec2bcd t.date,
    dec2bcd t.month, dec2bcd t.year]

/-- `ALMTIME(hours?, minutes?)` (44_alarms.md R150): the minute byte and the hour byte, or the failing field, minutes
tested first (decision D12). The masks are those of 30_encoding.md R56. -/
def almTime (hours minutes : Option Int) : Except Field (Byte × Byte) := do
  let mi ← optionalField .minutes 0 59 minutes
  let h ← optionalField .hours 0 23 hours
  return (dec2bcd (mi.getD 0) &&& 0x7F, dec2bcd (h.getD 0) &&& 0x3F)

/-- The status code of an outcome on the result port (30_encoding.md R63). -/
def CmdOutcome.status : CmdOutcome → Nat
  | .ok _ => 0
  | .warnStatus => 1
  | .rejValue => 2
  | .errArg _ => 4
  | .errBus => 5
  | .errOp => 6

/-- The field code an ERR_ARG carries: the register index of the field (30_encoding.md R63). -/
def Field.code : Field → Nat
  | .seconds => 0
  | .minutes => 1
  | .hours => 2
  | .weekday => 3
  | .date => 4
  | .month => 5
  | .year => 6

/-- The first three outcomes are completions, the last three errors (00_scope.md R7). -/
def CmdOutcome.isError : CmdOutcome → Bool
  | .ok _ => false
  | .warnStatus => false
  | .rejValue => false
  | .errArg _ => true
  | .errBus => true
  | .errOp => true

/-- The value on the result port (30_encoding.md R63): the result with OK, the field code with ERR_ARG, else nothing. -/
def CmdOutcome.portValue : CmdOutcome → Value
  | .ok v => v
  | .warnStatus => .empty
  | .rejValue => .empty
  | .errArg f => .int f.code
  | .errBus => .empty
  | .errOp => .empty

/-- The weekday constants Sun = 0x01 to Sat = 0x40: the bit of weekday `w` (30_encoding.md R57). -/
def weekdayBit (w : Nat) : BitVec 7 := 1 <<< w

end Sys2Proof.Machine
end

