-- ==== Sys2Proof/Machine/Ops.lean ====
section
/-! DEFINITION. The named operations: the device register space, the mirror, the environment, the two bus transfers,
the end of a command and its errors, the start of a device command, and the host's pointer. -/

namespace Sys2Proof.Machine

/-! ### The device register space -/

/-- What a register no entry lists reads as (DESIGN CHOICE, log 5). -/
def Memory.unlisted : Byte := 0x00

/-- The byte at key `a`, by search. -/
def Memory.lookup (a : Nat) : Memory → Byte
  | [] => Memory.unlisted
  | (k, v) :: rest => if k = a then v else Memory.lookup a rest

/-- The content of device register `a` (20_memory.md R30). -/
def Memory.read (m : Memory) (a : RegIndex) : Byte := Memory.lookup a.val m

/-- Put `b` at key `a`, keeping keys rising and listing no byte equal to `Memory.unlisted`. -/
def Memory.insert (a : Nat) (b : Byte) : Memory → Memory
  | [] => if b = Memory.unlisted then [] else [(a, b)]
  | (k, v) :: rest =>
    if k < a then (k, v) :: Memory.insert a b rest
    else if k = a then (if b = Memory.unlisted then rest else (a, b) :: rest)
    else if b = Memory.unlisted then (k, v) :: rest
    else (a, b) :: (k, v) :: rest

/-- Store `b` in device register `a`. -/
def Memory.write (m : Memory) (a : RegIndex) (b : Byte) : Memory := Memory.insert a.val b m

/-- The canonical form: indices strictly rising and below 16, no entry equal to what an unlisted register reads as. -/
def Memory.wf (m : Memory) : Bool :=
  decide (m.Pairwise fun p q => p.1 < q.1) && m.all fun p => decide (p.1 < 16) && p.2 != Memory.unlisted

/-- The environment's changes to device registers, in order (00_scope.md R8; 20_memory.md R40). -/
def Memory.drift (m : Memory) : Updates → Memory
  | [] => m
  | (a, b) :: rest => Memory.drift (m.write a b) rest

/-- Bytes to registers, in ascending order, each byte atomic and the environment's changes `gaps` before each (20_memory.md
R36, R39). -/
def Memory.writeAll (m : Memory) : List RegIndex → List Byte → List Updates → Memory
  | a :: as, b :: bs, gaps => Memory.writeAll ((m.drift (gaps.headD [])).write a b) as bs gaps.tail
  | _, _, _ => m

/-- Bytes from registers, in ascending order, each byte atomic and the environment's changes `gaps` before each
(20_memory.md R36, R39). -/
def Memory.readAll (m : Memory) : List RegIndex → List Updates → List Byte
  | [], _ => []
  | a :: as, gaps => (m.drift (gaps.headD [])).read a :: Memory.readAll (m.drift (gaps.headD [])) as gaps.tail

/-! ### Spans -/

/-- The register index a span starts at (20_memory.md R32). -/
def Span.start : Span → RegIndex
  | .datetime => 0x00
  | .offset => 0x07
  | .weeklyAlarm => 0x08
  | .dailyAlarm => 0x0B
  | .control1 => 0x0E
  | .control => 0x0E
  | .control2 => 0x0F

/-- The register indices of a span, ascending (20_memory.md R32, R36). -/
def Span.indices : Span → List RegIndex
  | .datetime => [0x00, 0x01, 0x02, 0x03, 0x04, 0x05, 0x06]
  | .offset => [0x07]
  | .weeklyAlarm => [0x08, 0x09, 0x0A]
  | .dailyAlarm => [0x0B, 0x0C]
  | .control1 => [0x0E]
  | .control => [0x0E, 0x0F]
  | .control2 => [0x0F]

/-- The wire register address of a span (20_memory.md R33 to R35, 40_codec.md R90). -/
def Span.wire (sp : Span) : Byte := regAddr (BitVec.ofNat 4 sp.start.val)

/-- The byte count of a span's transfer (20_memory.md R38). -/
def Span.count (sp : Span) : Nat := sp.indices.length

/-! ### The mirror -/

/-- `x[i]` (00_scope.md R6). -/
def State.getX (s : State) (i : RegIndex) : Byte := s.x.get i

/-- `x[i] <- v` (00_scope.md R6). -/
def State.setX (s : State) (i : RegIndex) (v : Byte) : State := { s with x := s.x.set i.val v i.isLt }

/-- `x[i..j] <- bytes`, in order (00_scope.md R6). -/
def State.setXs (s : State) : List RegIndex → List Byte → State
  | i :: is, b :: bs => State.setXs (s.setX i b) is bs
  | _, _ => s

/-- The mirror bytes of a span. -/
def State.getXs (s : State) (is : List RegIndex) : List Byte := is.map s.getX

/-- `(x[14], x[15]) <- (c1, c2)`, the Control block (43_composer.md R138). -/
def State.setControl (s : State) (c : Byte × Byte) : State := (s.setX 14 c.1).setX 15 c.2

/-! ### The environment -/

/-- The environment's event at the `k`-th transfer from now: the scripted one, or a free one (log 4). -/
def State.upcoming (s : State) (k : Nat) : EnvEvent :=
  match s.env[k]? with
  | some e => e
  | none => Config.envEvent (s.draws + (k - s.env.length))

/-- The state after `k` environment events have been used. -/
def State.consume (k : Nat) (s : State) : State :=
  { s with env := s.env.drop k, draws := s.draws + (k - s.env.length) }

/-- The environment's changes before each byte of a transfer: those before the first byte are its `drift`, applied
already. -/
def gapsOf (e : EnvEvent) : List Updates := [] :: e.within

/-- The device registers as the next transfer finds them (00_scope.md R8). -/
def State.found (s : State) : Memory := s.mem.drift (s.upcoming 0).drift

/-- The bytes a read of `sp` returns, each as its turn finds the register (20_memory.md R34, R39). -/
def State.readBytes (s : State) (sp : Span) : List Byte := s.found.readAll sp.indices (gapsOf (s.upcoming 0))

/-- The device registers as the last byte of a read of `sp` finds them (20_memory.md R39). -/
def State.passed (s : State) (sp : Span) : Memory := s.found.drift ((gapsOf (s.upcoming 0)).take sp.count).flatten

/-- The device registers after a write has delivered `bytes` to `sp`, or to its beginning (20_memory.md R35, R39). -/
def State.delivered (s : State) (sp : Span) (bytes : List Byte) : Memory :=
  s.found.writeAll sp.indices bytes (gapsOf (s.upcoming 0))

/-! ### The end of a command -/

/-- `result v` (00_scope.md R6): the command ends and its outcome is on the result port. -/
def State.finish (o : CmdOutcome) (s : State) : State := { s with outcomes := s.outcomes ++ [o] }

/-- Taking an error (60_exceptions.md R178): the command ends at this point with the error on the result port; nothing
is saved, switched or redirected, and the state is what the command had reached. There is no return (R179). -/
def State.raise (o : CmdOutcome) (s : State) : State := s.finish o

/-- The outcome the result port shows (30_encoding.md R63): the last one returned. -/
def State.result (s : State) : Option CmdOutcome := s.outcomes.getLast?

/-- The command never ends: its transfer never returned (60_exceptions.md R174, U6; log 7). No outcome appears. -/
def State.hang (s : State) : State := { s with hung := true }

/-! ### The two bus transfers -/

/-- A transfer is issued: the environment has drifted, and the transfer is on the bus (00_scope.md R9). -/
def State.issue (s : State) (kind : TransferKind) (sp : Span) (bytes : List Byte) (mem : Memory) : State :=
  { s.consume 1 with
    mem := mem
    bus := s.bus ++ [{ kind := kind, slave := s.sa, wire := sp.wire, count := sp.count, bytes := bytes }] }

/-- `x[i..j] <- MemRead(i, n)` and the rest `k` of the command (20_memory.md R34): on bytes, they are stored in the
mirror at their own indices; on failure no mirror byte changes and the command ends with ERR_BUS. -/
def State.memRead (s : State) (sp : Span) (k : State → State) : State :=
  match (s.upcoming 0).answer with
  | .done => k ((s.issue .read sp (s.readBytes sp) (s.passed sp)).setXs sp.indices (s.readBytes sp))
  | .failed _ => (s.issue .read sp [] s.found).raise .errBus
  | .never _ => (s.issue .read sp [] s.found).hang

/-- `MemWrite(i, n, x[i..j])` and the rest `k` of the command (20_memory.md R35): the bytes written are the mirror's;
on failure some prefix of them is delivered and the command ends with ERR_BUS. -/
def State.memWrite (s : State) (sp : Span) (k : State → State) : State :=
  let bytes := s.getXs sp.indices
  match (s.upcoming 0).answer with
  | .done => k (s.issue .write sp bytes (s.delivered sp bytes))
  | .failed n => (s.issue .write sp bytes (s.delivered sp (bytes.take n))).raise .errBus
  | .never n => (s.issue .write sp bytes (s.delivered sp (bytes.take n))).hang

/-! ### The start of a command -/

/-- A command that issues transfers, other than INIT, is refused with ERR_OP while `inited` is 0, before anything else
(10_state.md R14, 60_exceptions.md R177 and R186). -/
def State.whenInited (s : State) (k : State → State) : State := if s.inited then k s else s.raise .errOp

/-- INIT's first actions: `inited <- 1 ; sa <- addr` or the default (43_composer.md R133, 10_state.md R13). -/
def State.beginInit (s : State) (addr : Option SlaveAddr) : State :=
  { s with inited := true, sa := addr.getD s.cfg.slaveDefault }

/-- `sterr <- v` (10_state.md R16). -/
def State.setSterr (s : State) (v : Bool) : State := { s with sterr := v }

/-! ### The host -/

/-- `cp <- cp + 1` after an outcome, completion or error alike (10_state.md R15); a command whose transfer never
returns gives no outcome. -/
def State.hostAdvance (s : State) : State := if s.hung then s else { s with cp := s.cp + 1 }

/-- `a` at position `n` of a list, the rest unchanged; a shorter list is filled up with `a`. -/
def placeAt {α : Type} (a : α) : List α → Nat → List α
  | [], 0 => [a]
  | [], n + 1 => a :: placeAt a [] n
  | _ :: rest, 0 => a :: rest
  | b :: rest, n + 1 => b :: placeAt a rest n

/-- The command the host presents next (00_scope.md R9). -/
def State.fetch (s : State) : Option CommandPort := s.program[s.cp]?

/-- The slave address as the spec has it: no value before INIT (10_state.md R13). -/
def State.slave (s : State) : Option SlaveAddr := if s.inited then some s.sa else none

/-- Reset of the block in the middle of a run (70_reset_and_hazards.md R200, R201): every piece of the block's state
takes its reset value, `cp` restarts the host's list, no transfer is issued and the device keeps its contents
(log 16). -/
def State.blockReset (s : State) : State :=
  { State.resetWith s.cfg with
    mem := s.mem, program := s.program, env := s.env, draws := s.draws, bus := s.bus, outcomes := s.outcomes }

end Sys2Proof.Machine
end

