-- ==== Sys2Proof/Machine/Alarms.lean ====
section
/-! DEFINITION. The six alarm commands (44_alarms.md). The Control block is written before the alarm registers
(70_reset_and_hazards.md R208). -/

namespace Sys2Proof.Machine

/-- DALMSET (44_alarms.md R151): the read comes before the validation (decision D13). -/
def execDalmset (hours minutes : Option Int) (s : State) : Host.Outcome State Fault Refusal :=
  .next <| s.whenInited fun s => s.memRead .control fun s =>
    match almTime hours minutes with
    | .error f => s.raise (.errArg f)
    | .ok (bm, bh) =>
      let s := (s.setX 11 bm).setX 12 bh
      let s := s.setControl (arm (s.getX 14) (s.getX 15) (dailyEnable s.cfg) (dailyFlag s.cfg))
      s.memWrite .control fun s => s.memWrite .dailyAlarm fun s => s.finish (.ok .empty)

/-- DALMCLR (44_alarms.md R152). -/
def execDalmclr (s : State) : Host.Outcome State Fault Refusal :=
  .next <| s.whenInited fun s => s.memRead .control fun s =>
    let s := (s.setX 11 0x00).setX 12 0x00
    let s := s.setControl (disarm (s.getX 14) (s.getX 15) (dailyEnable s.cfg) (dailyFlag s.cfg))
    s.memWrite .control fun s => s.memWrite .dailyAlarm fun s => s.finish (.ok .empty)

/-- DALMRST (44_alarms.md R153): the alarm time registers are neither read nor written. -/
def execDalmrst (s : State) : Host.Outcome State Fault Refusal :=
  .next <| s.whenInited fun s => s.memRead .control fun s =>
    let s := s.setControl (arm (s.getX 14) (s.getX 15) (dailyEnable s.cfg) (dailyFlag s.cfg))
    s.memWrite .control fun s => s.finish (.ok .empty)

/-- WALMSET (44_alarms.md R155): a zero mask leaves `x[10]`, which is sent all the same (90_conflicts.md C2, C5). -/
def execWalmset (hours minutes : Option Int) (wdmask : BitVec 7) (s : State) : Host.Outcome State Fault Refusal :=
  .next <| s.whenInited fun s => s.memRead .control fun s =>
    match almTime hours minutes with
    | .error f => s.raise (.errArg f)
    | .ok (bm, bh) =>
      let s := (s.setX 8 bm).setX 9 bh
      let s := if wdmask = 0 then s else s.setX 10 (wdmask.setWidth 8)
      let s := s.setControl (arm (s.getX 14) (s.getX 15) (weeklyEnable s.cfg) (weeklyFlag s.cfg))
      s.memWrite .control fun s => s.memWrite .weeklyAlarm fun s => s.finish (.ok .empty)

/-- WALMCLR (44_alarms.md R156): `x[10]` is not changed but is sent (decision D31). -/
def execWalmclr (s : State) : Host.Outcome State Fault Refusal :=
  .next <| s.whenInited fun s => s.memRead .control fun s =>
    let s := (s.setX 8 0x00).setX 9 0x00
    let s := s.setControl (disarm (s.getX 14) (s.getX 15) (weeklyEnable s.cfg) (weeklyFlag s.cfg))
    s.memWrite .control fun s => s.memWrite .weeklyAlarm fun s => s.finish (.ok .empty)

/-- WALMRST (44_alarms.md R157). -/
def execWalmrst (s : State) : Host.Outcome State Fault Refusal :=
  .next <| s.whenInited fun s => s.memRead .control fun s =>
    let s := s.setControl (arm (s.getX 14) (s.getX 15) (weeklyEnable s.cfg) (weeklyFlag s.cfg))
    s.memWrite .control fun s => s.finish (.ok .empty)

end Sys2Proof.Machine
end

