-- ==== Sys2Proof/Machine/Codec.lean ====
section
/-! DEFINITION. The six pure codec commands (40_codec.md): no transfer, no state but the result, accepted before
INIT. -/

namespace Sys2Proof.Machine

/-- BCD2DEC (40_codec.md R81). -/
def execBcd2dec (b : Byte) (s : State) : Host.Outcome State Fault Refusal := .next (s.finish (.ok (.int (bcd2dec b))))

/-- DEC2BCD (40_codec.md R82): refused outside 0..99, where "a model gives it no meaning and refuses it" (log 11). -/
def execDec2bcd (d : Int) (s : State) : Host.Outcome State Fault Refusal :=
  if dec2bcdDomain d then .next (s.finish (.ok (.byte (dec2bcd d)))) else .refused (.dec2bcdOutsideDomain d)

/-- WDAY (40_codec.md R85): refused outside its `require` (U2; log 11). -/
def execWday (date month year4 : Int) (s : State) : Host.Outcome State Fault Refusal :=
  if wdayDomain date month year4 then .next (s.finish (.ok (.int (wdayF date month year4))))
  else .refused (.wdayOutsideDomain date month year4)

/-- OFSDEC (40_codec.md R87). -/
def execOfsdec (b : Byte) (s : State) : Host.Outcome State Fault Refusal := .next (s.finish (.ok (.int (ofsDec b))))

/-- OFSENC (40_codec.md R89): an out-of-range value is reported, not raised. -/
def execOfsenc (v : Int) (s : State) : Host.Outcome State Fault Refusal :=
  .next (s.finish (if ofsInRange v then .ok (.byte (ofsEnc v)) else .rejValue))

/-- REGADDR (40_codec.md R90). -/
def execRegaddr (idx : BitVec 4) (s : State) : Host.Outcome State Fault Refusal :=
  .next (s.finish (.ok (.byte (regAddr idx))))

end Sys2Proof.Machine
end

