-- ==== Sys2Proof/Machine/Composer.lean ====
section
/-! DEFINITION. The commands that use the bit-field composer alone: INIT and CTMODE (43_composer.md). -/

namespace Sys2Proof.Machine

/-- INIT's defensive clear of Control1 and Control2, already 0 in the mirror, in the shape `INIT_CLEAR_SHAPE` gives
(43_composer.md R133; decision D14; log 13). -/
def defensiveClear (s : State) (k : State → State) : State :=
  match s.cfg.clearShape with
  | .twoOneByte => s.memWrite .control1 fun s => s.memWrite .control2 k
  | .oneTwoByte => s.memWrite .control k

/-- INIT (43_composer.md R133): once per reset; the status check and the defensive clear. -/
def execInit (addr : Option SlaveAddr) (s : State) : Host.Outcome State Fault Refusal :=
  .next <|
    if s.inited then s.raise .errOp
    else (s.beginInit addr).memRead .control2 fun s =>
      if statChk s.cfg (s.getX 15) then
        defensiveClear ((s.setSterr true).setControl (0x00, 0x00)) fun s => s.finish .warnStatus
      else (s.setSterr false).finish (.ok .empty)

/-- CTMODE (43_composer.md R136): the write is issued even when the byte is unchanged. -/
def execCtmode (mode : Option ModeCode) (s : State) : Host.Outcome State Fault Refusal :=
  .next <| s.whenInited fun s => s.memRead .control1 fun s =>
    (s.setX 14 (ctSel s.cfg (s.getX 14) mode)).memWrite .control1 fun s => s.finish (.ok .empty)

end Sys2Proof.Machine
end

