-- ==== Sys2Proof/Machine/Datetime.lean ====
section
/-! DEFINITION. The datetime commands RDDT and WRDT (41_datetime.md). -/

namespace Sys2Proof.Machine

/-- RDDT (41_datetime.md R101): the mirror keeps the raw bytes, the masks act on the way to the result. -/
def execRddt (s : State) : Host.Outcome State Fault Refusal :=
  .next <| s.whenInited fun s => s.memRead .datetime fun s =>
    s.finish (.ok (.dateTime (dtDec (s.getXs Span.datetime.indices))))

/-- WRDT (41_datetime.md R104): validate before any transfer, write the seven datetime registers, then read Control2
and write it back with VDET cleared. -/
def execWrdt (seconds minutes hours date month year weekday : Option Int) (s : State) :
    Host.Outcome State Fault Refusal :=
  .next <| s.whenInited fun s =>
    match dtValid seconds minutes hours date month year weekday with
    | .error f => s.raise (.errArg f)
    | .ok (t, wd) =>
      let s := s.setXs Span.datetime.indices (dtEnc { t with weekday := wrdtWeekday s.cfg t wd })
      s.memWrite .datetime fun s => s.memRead .control2 fun s =>
        let s := s.setX 15 (vdetClr s.cfg (s.getX 15))
        s.memWrite .control2 fun s => s.finish (.ok .empty)

end Sys2Proof.Machine
end

