-- ==== Sys2Proof/Machine/Offset.lean ====
section
/-! DEFINITION. The digital trim offset commands OFSGET and OFSSET (42_offset.md). -/

namespace Sys2Proof.Machine

/-- OFSGET (42_offset.md R120). -/
def execOfsget (s : State) : Host.Outcome State Fault Refusal :=
  .next <| s.whenInited fun s => s.memRead .offset fun s => s.finish (.ok (.int (ofsDec (s.getX 7))))

/-- OFSSET (42_offset.md R122): an out-of-range value is a completion with a report and no transfer. -/
def execOfsset (v : Int) (s : State) : Host.Outcome State Fault Refusal :=
  .next <| s.whenInited fun s =>
    if ofsInRange v then (s.setX 7 (ofsEnc v)).memWrite .offset fun s => s.finish (.ok .empty)
    else s.finish .rejValue

end Sys2Proof.Machine
end

