-- ==== Sys2Proof/Machine/Dispatch.lean ====
section
/-! DEFINITION. One arm per command. -/

namespace Sys2Proof.Machine

def exec (i : Instr) (s : State) : Host.Outcome State Fault Refusal :=
  match i with
  | .bcd2dec b => Sys2Proof.Machine.execBcd2dec b s
  | .dec2bcd d => Sys2Proof.Machine.execDec2bcd d s
  | .wday date month year4 => Sys2Proof.Machine.execWday date month year4 s
  | .ofsdec b => Sys2Proof.Machine.execOfsdec b s
  | .ofsenc v => Sys2Proof.Machine.execOfsenc v s
  | .regaddr idx => Sys2Proof.Machine.execRegaddr idx s
  | .init addr => Sys2Proof.Machine.execInit addr s
  | .rddt => Sys2Proof.Machine.execRddt s
  | .wrdt se mi h d mo y wd => Sys2Proof.Machine.execWrdt se mi h d mo y wd s
  | .ofsget => Sys2Proof.Machine.execOfsget s
  | .ofsset v => Sys2Proof.Machine.execOfsset v s
  | .ctmode mode => Sys2Proof.Machine.execCtmode mode s
  | .dalmset hours minutes => Sys2Proof.Machine.execDalmset hours minutes s
  | .dalmclr => Sys2Proof.Machine.execDalmclr s
  | .dalmrst => Sys2Proof.Machine.execDalmrst s
  | .walmset hours minutes wdmask => Sys2Proof.Machine.execWalmset hours minutes wdmask s
  | .walmclr => Sys2Proof.Machine.execWalmclr s
  | .walmrst => Sys2Proof.Machine.execWalmrst s

end Sys2Proof.Machine
end

