-- ==== Sys2Proof/Machine/Step.lean ====
section
/-! DEFINITION. One step of the machine: the host presents the command at `cp`, the block executes it to its
outcome, the host advances. -/

namespace Sys2Proof.Machine

/-- One step (00_scope.md R8, R9; 10_state.md R15). A block that still waits for a transfer that never returns does
not go on (U6). With no command presented the block waits (70_reset_and_hazards.md R202). A reserved code ends at once
with ERR_OP (30_encoding.md R64). After every outcome `cp` advances by one. -/
def step (s : State) : Host.Outcome State Fault Refusal :=
  if s.hung then .fault .transferNeverReturns
  else
    match s.fetch with
    | none => .next s
    | some port =>
      match decode port with
      | .error _ => .next (s.raise .errOp).hostAdvance
      | .ok i =>
        match exec i s with
        | .next t => .next t.hostAdvance
        | .fault r => .fault r
        | .refused r => .refused r

/-- `s` with the command of a table word as the command the host presents next, and the block not waiting for a transfer,
so that the next step runs exactly it (logs 8, 9). -/
def State.withFetchWord (s : State) (nbits w : Nat) : State :=
  { s with program := placeAt (tablePort nbits w) s.program s.cp, hung := false }

end Sys2Proof.Machine
end

