-- ==== Sys2Proof/Machine/Pseudo.lean ====
section
/-! DEFINITION. The host's pseudo-operations (30_encoding.md R67): each expands to one command with its operands
rearranged. They are executed by the host, not by the block. -/

namespace Sys2Proof.Machine

/-- The command a pseudo-operation expands to (30_encoding.md R67; 41_datetime.md R107 and R108; 44_alarms.md R154 and
R158). -/
def expand : PseudoOp → Instr
  | .wrtup y mo d wd h mi s => .wrdt (some s) (some mi) (some h) (some d) (some mo) (some y) (some wd)
  | .wrnow year4 mo d wd h mi s =>
      .wrdt (some s) (some mi) (some h) (some d) (some mo) (some (year4 % 100)) (some wd)
  | .offset none => .ofsget
  | .offset (some v) => .ofsset v
  | .dailyAlarm none none => .dalmclr
  | .dailyAlarm hours minutes => .dalmset hours minutes
  | .weeklyAlarm none none none => .walmclr
  | .weeklyAlarm hours minutes weekdays => .walmset hours minutes (weekdays.getD 0)
  | .construct address => .init address

/-- The state in which the host issues the command: CONSTRUCT resets the block first (30_encoding.md R67). -/
def beforePseudo (p : PseudoOp) (s : State) : State :=
  match p with
  | .construct _ => s.blockReset
  | .wrtup _ _ _ _ _ _ _ => s
  | .wrnow _ _ _ _ _ _ _ => s
  | .offset _ => s
  | .dailyAlarm _ _ => s
  | .weeklyAlarm _ _ _ => s

end Sys2Proof.Machine
end

