-- ==== Sys2Proof/WellFormed.lean ====
section
/-! DEFINITION. Which commands can be presented on the operand ports, and which lie in the domain their rule
requires. -/

namespace Sys2Proof

/-- A signed integer that fits an operand port of `ARG_BITS` bits (30_encoding.md R60; decision D19). -/
def fitsPort (c : Cfg) (v : Int) : Bool :=
  decide (-(2 ^ (c.argBits - 1) : Int) ≤ v) && decide (v < (2 ^ (c.argBits - 1) : Int))

/-- An absent operand fits every port. -/
def fitsOptPort (c : Cfg) : Option Int → Bool
  | none => true
  | some v => fitsPort c v

/-- Every integer operand fits its port. Operands of fixed width fit by their types. -/
def Instr.fitsPorts (c : Cfg) : Instr → Bool
  | .bcd2dec _ => true
  | .dec2bcd d => fitsPort c d
  | .wday date month year4 => fitsPort c date && fitsPort c month && fitsPort c year4
  | .ofsdec _ => true
  | .ofsenc v => fitsPort c v
  | .regaddr _ => true
  | .init _ => true
  | .rddt => true
  | .wrdt seconds minutes hours date month year weekday =>
      fitsOptPort c seconds && fitsOptPort c minutes && fitsOptPort c hours && fitsOptPort c date &&
        fitsOptPort c month && fitsOptPort c year && fitsOptPort c weekday
  | .ofsget => true
  | .ofsset v => fitsPort c v
  | .ctmode _ => true
  | .dalmset hours minutes => fitsOptPort c hours && fitsOptPort c minutes
  | .dalmclr => true
  | .dalmrst => true
  | .walmset hours minutes _ => fitsOptPort c hours && fitsOptPort c minutes
  | .walmclr => true
  | .walmrst => true

/-- The `require` lines: the two stand-alone commands whose domain is bounded (40_codec.md R82, R85). Every other
command is defined for every operand. -/
def Instr.inDomain : Instr → Bool
  | .bcd2dec _ => true
  | .dec2bcd d => decide (0 ≤ d) && decide (d ≤ 99)
  | .wday date month year4 =>
      decide (1 ≤ month) && decide (month ≤ 12) && decide (1 ≤ date) && decide (date ≤ 31) && decide (1 ≤ year4)
  | .ofsdec _ => true
  | .ofsenc _ => true
  | .regaddr _ => true
  | .init _ => true
  | .rddt => true
  | .wrdt _ _ _ _ _ _ _ => true
  | .ofsget => true
  | .ofsset _ => true
  | .ctmode _ => true
  | .dalmset _ _ => true
  | .dalmclr => true
  | .dalmrst => true
  | .walmset _ _ _ => true
  | .walmclr => true
  | .walmrst => true

/-- A command the host can present and the spec gives a meaning. -/
def Instr.wellFormed (c : Cfg) (i : Instr) : Bool := i.fitsPorts c && i.inDomain

end Sys2Proof
end

