-- ==== Sys2Proof/Safety.lean ====
section
/-! DEFINITION. The terms the statements are written in: what the environment answers, what a command may transfer and
change, and what every state of a run keeps. -/

namespace Sys2Proof

/-- Every change an event makes to a device register. -/
def EnvEvent.changes (e : EnvEvent) : Updates := e.drift ++ e.within.flatten

end Sys2Proof

namespace Sys2Proof.Machine

/-! ### The environment -/

/-- The next `n` transfers are answered. -/
abbrev answered (s : State) (n : Nat) : Prop := ∀ k < n, (s.upcoming k).answer = .done

/-- The next `n` transfers meet the static test-bench device (20_memory.md R47). -/
abbrev staticFor (s : State) (n : Nat) : Prop := ∀ k < n, s.upcoming k = EnvEvent.static

/-- The environment does not itself change register `a` before or during any of the next `n` transfers. -/
abbrev undrifted (s : State) (n : Nat) (a : RegIndex) : Prop :=
  ∀ k < n, ∀ p ∈ (s.upcoming k).changes, p.1 ≠ a

/-- The device registers as byte `k` of a transfer finds them, when its first byte finds `m` and the transfer itself
stores nothing in between: the environment's changes between the bytes before it have happened (20_memory.md R39). -/
def Memory.during (m : Memory) (e : EnvEvent) (k : Nat) : Memory := m.drift (e.within.take k).flatten

/-- How many transfers lie between two states of a run. -/
def issuedSince (s t : State) : Nat := t.bus.length - s.bus.length

/-! ### The state a command ends in -/

/-- A read as observed. -/
def Transfer.rd (slave : SlaveAddr) (wire : Byte) (count : Nat) (bytes : List Byte) : Transfer :=
  { kind := .read, slave := slave, wire := wire, count := count, bytes := bytes }

/-- A write as observed. -/
def Transfer.wr (slave : SlaveAddr) (wire : Byte) (count : Nat) (bytes : List Byte) : Transfer :=
  { kind := .write, slave := slave, wire := wire, count := count, bytes := bytes }

/-- `s` after a command that used `n` environment events, left the mirror `x` and the device registers `m`, issued the
transfers `ts` and returned `o`. Nothing else differs from `s`. -/
def State.after (s : State) (n : Nat) (x : Vector Byte 16) (m : Memory) (ts : List Transfer) (o : CmdOutcome) : State :=
  { s.consume n with x := x, mem := m, bus := s.bus ++ ts, outcomes := s.outcomes ++ [o] }

/-- The command `i` at `s` reads the Control block, replaces its bytes by `f1` and `f2` of the bytes read and writes it
back, ending with OK; a failing transfer ends it with ERR_BUS where it stands, a failing write after a prefix of its bytes
(44_alarms.md R153, R157; decision D26, log 6). -/
def RewritesControl (i : Instr) (s : State) (f1 f2 : Byte → Byte) : Prop :=
  let e0 := s.upcoming 0
  let e1 := s.upcoming 1
  let m0 := s.mem.drift e0.drift
  let c1 := m0.read 14
  let c2 := (m0.during e0 1).read 15
  let rd := Transfer.rd s.sa 0xE0 2 [c1, c2]
  let wr := Transfer.wr s.sa 0xE0 2 [f1 c1, f2 c2]
  let x1 := (s.x.set 14 (f1 c1)).set 15 (f2 c2)
  let m1 := (m0.during e0 1).drift e1.drift
  (answered s 2 →
    exec i s = .next (s.after 2 x1 (((m1.write 14 (f1 c1)).during e1 1).write 15 (f2 c2)) [rd, wr] (.ok .empty))) ∧
  (∀ d, e0.answer = .failed d → exec i s = .next (s.after 1 s.x m0 [Transfer.rd s.sa 0xE0 2 []] .errBus)) ∧
  (∀ d, e0.answer = .done → e1.answer = .failed d →
    exec i s = .next (s.after 2 x1 (m1.writeAll [14, 15] ([f1 c1, f2 c2].take d) (gapsOf e1)) [rd, wr] .errBus))

/-- The command `i` at `s` reads the Control block, writes it back as `f1` and `f2` of the bytes read, then writes
`bytes` to the alarm registers `sp`, ending with OK; the mirror holds every byte written, also when a write fails, which
it does after a prefix of its bytes (44_alarms.md R151, R152, R155, R156; 20_memory.md R35; decision D26, log 6). -/
def RewritesControlThenAlarm (i : Instr) (s : State) (f1 f2 : Byte → Byte) (sp : Span) (bytes : List Byte) : Prop :=
  let e0 := s.upcoming 0
  let e1 := s.upcoming 1
  let e2 := s.upcoming 2
  let m0 := s.mem.drift e0.drift
  let c1 := m0.read 14
  let c2 := (m0.during e0 1).read 15
  let rd := Transfer.rd s.sa 0xE0 2 [c1, c2]
  let wr1 := Transfer.wr s.sa 0xE0 2 [f1 c1, f2 c2]
  let wr2 := Transfer.wr s.sa sp.wire sp.count bytes
  let x1 := ((s.setXs [14, 15] [f1 c1, f2 c2]).setXs sp.indices bytes).x
  let m1 := (m0.during e0 1).drift e1.drift
  let m2 := (((m1.write 14 (f1 c1)).during e1 1).write 15 (f2 c2)).drift e2.drift
  (answered s 3 → exec i s =
    .next (s.after 3 x1 (m2.writeAll sp.indices bytes (gapsOf e2)) [rd, wr1, wr2] (.ok .empty))) ∧
  (∀ d, e0.answer = .failed d → exec i s = .next (s.after 1 s.x m0 [Transfer.rd s.sa 0xE0 2 []] .errBus)) ∧
  (∀ d, e0.answer = .done → e1.answer = .failed d → exec i s =
    .next (s.after 2 x1 (m1.writeAll [14, 15] ([f1 c1, f2 c2].take d) (gapsOf e1)) [rd, wr1] .errBus)) ∧
  (∀ d, answered s 2 → e2.answer = .failed d → exec i s =
    .next (s.after 3 x1 (m2.writeAll sp.indices (bytes.take d) (gapsOf e2)) [rd, wr1, wr2] .errBus))

/-- The command `i` at `s` reads the Control block into the mirror and ends there with `o`, with nothing written; a
failing read ends it with ERR_BUS instead (60_exceptions.md R171, R177). -/
def StopsAfterControlRead (i : Instr) (s : State) (o : CmdOutcome) : Prop :=
  let e0 := s.upcoming 0
  let m0 := s.mem.drift e0.drift
  let c1 := m0.read 14
  let c2 := (m0.during e0 1).read 15
  (answered s 1 → exec i s =
    .next (s.after 1 ((s.x.set 14 c1).set 15 c2) (m0.during e0 1) [Transfer.rd s.sa 0xE0 2 [c1, c2]] o)) ∧
  (∀ d, e0.answer = .failed d → exec i s = .next (s.after 1 s.x m0 [Transfer.rd s.sa 0xE0 2 []] .errBus))

/-- Two states that differ at most in mirror bytes other than `x[10]` (10_state.md R23). -/
def sameButMirror (s t : State) : Prop := { t with x := s.x } = s ∧ t.getX 10 = s.getX 10

/-- Two answers of the same kind: next states that differ at most in mirror bytes other than `x[10]`, the same fault, or
the same refusal. -/
def answersAlike : Host.Outcome State Fault Refusal → Host.Outcome State Fault Refusal → Prop
  | .next t, .next u => sameButMirror t u
  | .fault r, .fault r' => r = r'
  | .refused r, .refused r' => r = r'
  | _, _ => False

end Sys2Proof.Machine

namespace Sys2Proof

open Machine

/-! ### What a command may do -/

/-- The pure codec commands (10_state.md R14). -/
def Instr.isCodec : Instr → Bool
  | .bcd2dec _ => true
  | .dec2bcd _ => true
  | .wday _ _ _ => true
  | .ofsdec _ => true
  | .ofsenc _ => true
  | .regaddr _ => true
  | .init _ => false
  | .rddt => false
  | .wrdt _ _ _ _ _ _ _ => false
  | .ofsget => false
  | .ofsset _ => false
  | .ctmode _ => false
  | .dalmset _ _ => false
  | .dalmclr => false
  | .dalmrst => false
  | .walmset _ _ _ => false
  | .walmclr => false
  | .walmrst => false

/-- INIT, by its operation-select code (30_encoding.md R62). -/
def Instr.isInit (i : Instr) : Bool := i.opcode == 0x08

/-- Every command that issues a bus transfer other than INIT (10_state.md R14). -/
def Instr.isDevice (i : Instr) : Bool := !i.isCodec && !i.isInit

/-- The transfers of a command, in order, as kind, wire address and byte count (20_memory.md R32, its table; R33). The
writes of INIT come only on the anomaly path. -/
def Instr.transfers (shape : ClearShape) : Instr → List (TransferKind × Byte × Nat)
  | .bcd2dec _ => []
  | .dec2bcd _ => []
  | .wday _ _ _ => []
  | .ofsdec _ => []
  | .ofsenc _ => []
  | .regaddr _ => []
  | .init _ =>
    match shape with
    | .twoOneByte => [(.read, 0xF0, 1), (.write, 0xE0, 1), (.write, 0xF0, 1)]
    | .oneTwoByte => [(.read, 0xF0, 1), (.write, 0xE0, 2)]
  | .rddt => [(.read, 0x00, 7)]
  | .wrdt _ _ _ _ _ _ _ => [(.write, 0x00, 7), (.read, 0xF0, 1), (.write, 0xF0, 1)]
  | .ofsget => [(.read, 0x70, 1)]
  | .ofsset _ => [(.write, 0x70, 1)]
  | .ctmode _ => [(.read, 0xE0, 1), (.write, 0xE0, 1)]
  | .dalmset _ _ => [(.read, 0xE0, 2), (.write, 0xE0, 2), (.write, 0xB0, 2)]
  | .dalmclr => [(.read, 0xE0, 2), (.write, 0xE0, 2), (.write, 0xB0, 2)]
  | .dalmrst => [(.read, 0xE0, 2), (.write, 0xE0, 2)]
  | .walmset _ _ _ => [(.read, 0xE0, 2), (.write, 0xE0, 2), (.write, 0x80, 3)]
  | .walmclr => [(.read, 0xE0, 2), (.write, 0xE0, 2), (.write, 0x80, 3)]
  | .walmrst => [(.read, 0xE0, 2), (.write, 0xE0, 2)]

/-- The mirror bytes a command may write, by assignment or by a load (10_state.md R11, its table). -/
def Instr.mirrorWrites : Instr → List RegIndex
  | .bcd2dec _ => []
  | .dec2bcd _ => []
  | .wday _ _ _ => []
  | .ofsdec _ => []
  | .ofsenc _ => []
  | .regaddr _ => []
  | .init _ => [14, 15]
  | .rddt => [0, 1, 2, 3, 4, 5, 6]
  | .wrdt _ _ _ _ _ _ _ => [0, 1, 2, 3, 4, 5, 6, 15]
  | .ofsget => [7]
  | .ofsset _ => [7]
  | .ctmode _ => [14]
  | .dalmset _ _ => [11, 12, 14, 15]
  | .dalmclr => [11, 12, 14, 15]
  | .dalmrst => [14, 15]
  | .walmset _ _ wdmask => if wdmask = 0 then [8, 9, 14, 15] else [8, 9, 10, 14, 15]
  | .walmclr => [8, 9, 14, 15]
  | .walmrst => [14, 15]

/-- The device registers a command may store to (20_memory.md R32, the writes of its table). -/
def Instr.deviceWrites : Instr → List RegIndex
  | .bcd2dec _ => []
  | .dec2bcd _ => []
  | .wday _ _ _ => []
  | .ofsdec _ => []
  | .ofsenc _ => []
  | .regaddr _ => []
  | .init _ => [14, 15]
  | .rddt => []
  | .wrdt _ _ _ _ _ _ _ => [0, 1, 2, 3, 4, 5, 6, 15]
  | .ofsget => []
  | .ofsset _ => [7]
  | .ctmode _ => [14]
  | .dalmset _ _ => [11, 12, 14, 15]
  | .dalmclr => [11, 12, 14, 15]
  | .dalmrst => [14, 15]
  | .walmset _ _ _ => [8, 9, 10, 14, 15]
  | .walmclr => [8, 9, 10, 14, 15]
  | .walmrst => [14, 15]

/-- The two bundles of port values agree on every port the command reads (30_encoding.md R61, column "used by"). -/
def Instr.samePorts (p q : CommandPort) : Instr → Prop
  | .bcd2dec _ => p.b = q.b
  | .dec2bcd _ => p.d = q.d
  | .wday _ _ _ => p.date.value = q.date.value ∧ p.month.value = q.month.value ∧ p.year4 = q.year4
  | .ofsdec _ => p.b = q.b
  | .ofsenc _ => p.v = q.v
  | .regaddr _ => p.idx = q.idx
  | .init _ => p.addr = q.addr
  | .rddt => True
  | .wrdt _ _ _ _ _ _ _ =>
      p.seconds = q.seconds ∧ p.minutes = q.minutes ∧ p.hours = q.hours ∧ p.date = q.date ∧ p.month = q.month ∧
        p.year = q.year ∧ p.weekday = q.weekday
  | .ofsget => True
  | .ofsset _ => p.v = q.v
  | .ctmode _ => p.mode = q.mode
  | .dalmset _ _ => p.hours = q.hours ∧ p.minutes = q.minutes
  | .dalmclr => True
  | .dalmrst => True
  | .walmset _ _ _ => p.hours = q.hours ∧ p.minutes = q.minutes ∧ p.wdmask = q.wdmask
  | .walmclr => True
  | .walmrst => True

end Sys2Proof

namespace Sys2Proof.Machine

/-! ### Operands -/

/-- A required field fails: it is absent or out of range (41_datetime.md R102). -/
def failsRequired (lo hi : Int) : Option Int → Bool
  | none => true
  | some v => decide (v < lo ∨ hi < v)

/-- An optional field fails: it is present and out of range (41_datetime.md R102, 44_alarms.md R150). -/
def failsOptional (lo hi : Int) : Option Int → Bool
  | none => false
  | some v => decide (v < lo ∨ hi < v)

/-- The fields of a datetime write in the order they are tested, each with whether it fails (41_datetime.md R102). -/
def datetimeChecks (seconds minutes hours date month year weekday : Option Int) : List (Field × Bool) :=
  [(.seconds, failsRequired 0 59 seconds), (.minutes, failsRequired 0 59 minutes), (.hours, failsRequired 0 23 hours),
    (.date, failsRequired 1 31 date), (.month, failsRequired 1 12 month), (.year, failsRequired 0 99 year),
    (.weekday, failsOptional 0 6 weekday)]

/-- The first field that fails, if any. -/
def firstFailing (checks : List (Field × Bool)) : Option Field := (checks.find? fun c => c.2).map fun c => c.1

/-- A Gregorian leap year. -/
def leapYear (y : Int) : Bool := y % 4 == 0 && (y % 100 != 0 || y % 400 == 0)

/-- The length of a Gregorian month. -/
def daysIn (month y : Int) : Int :=
  if month = 2 then (if leapYear y then 29 else 28)
  else if month = 4 ∨ month = 6 ∨ month = 9 ∨ month = 11 then 30 else 31

/-- The Gregorian day after (date, month, year). -/
def nextDay (date month y : Int) : Int × Int × Int :=
  if date < daysIn month y then (date + 1, month, y)
  else if month < 12 then (1, month + 1, y)
  else (1, 1, y + 1)

/-! ### What every state of a run keeps -/

/-- A valid BCD byte of at most `hi` (40_codec.md R80). -/
def bcdUpTo (hi : Int) (b : Byte) : Bool :=
  decide ((b >>> 4).toNat ≤ 9) && decide ((b &&& 0xF).toNat ≤ 9) && decide (bcd2dec b ≤ hi)

/-- The invariant of the machine. -/
structure Inv (s : State) : Prop where
  /-- The device register space keeps its canonical form. -/
  memory : s.mem.wf = true
  /-- `x[13]` is never written and never loaded (10_state.md R11). -/
  ram : s.getX 13 = s.cfg.mirrorReset
  /-- No rule reads or writes `scratch` (10_state.md R12). -/
  scratch : s.scratch = s.cfg.mirrorReset
  /-- `x[10]` is the reset value or a 7-bit mask (92_eei_decisions.md D20). -/
  weekdayMask : s.getX 10 = s.cfg.mirrorReset ∨ (s.getX 10).getLsbD 7 = false
  /-- The alarm minute bytes are the reset value or a BCD minute (30_encoding.md R56). -/
  alarmMinutes : ∀ i ∈ [(8 : RegIndex), 11], s.getX i = s.cfg.mirrorReset ∨ bcdUpTo 59 (s.getX i) = true
  /-- The alarm hour bytes are the reset value or a BCD hour (30_encoding.md R56). -/
  alarmHours : ∀ i ∈ [(9 : RegIndex), 12], s.getX i = s.cfg.mirrorReset ∨ bcdUpTo 23 (s.getX i) = true
  /-- Before INIT nothing has been transferred, no error is recorded and no transfer is in progress (10_state.md R14,
  R16, R22). -/
  beforeInit : s.inited = false → s.sterr = false ∧ s.bus = [] ∧ s.hung = false
  /-- Every transfer used the slave address `sa`, written once (10_state.md R13). -/
  slave : ∀ t ∈ s.bus, t.slave = s.sa
  /-- Every transfer named a register in the high nibble and moved 1, 2, 3 or 7 bytes (20_memory.md R37, R38). -/
  shape : ∀ t ∈ s.bus, t.wire &&& 0x0F = 0 ∧ t.count ∈ [1, 2, 3, 7]
  /-- The host has counted every outcome (10_state.md R15). -/
  counted : s.cp = s.outcomes.length

end Sys2Proof.Machine
end

