-- ==== Sys2Proof/Certificates/Slice0/Obligations.lean ====
section
/-! DEFINITION. The statements for the provers. -/

open Sys2Proof Sys2Proof.Machine

/-! ### Encoding and stepping -/

/-- The decoder reads back every command the encoder presents, with every operand at every value (30_encoding.md R60
to R62). -/
def Obligations.DecodeOfEncodeIsTheCommand : Prop := ∀ i : Instr, decode (encode i) = .ok i

/-- A decoded command has the operation-select code of its row, and its decoding depends on no port it does not read
(30_encoding.md R60 to R62). -/
def Obligations.DecodeReadsOnlyTheCommandsPorts : Prop :=
  ∀ (p : CommandPort) (i : Instr), decode p = .ok i →
    p.op = i.opcode ∧ ∀ q : CommandPort, q.op = p.op → i.samePorts p q → decode q = .ok i

/-- 30_encoding.md R64 (the spec's own rule, decision D18): the fourteen reserved codes, no others, decode to no
command, and a step on one answers ERR_OP, issues no transfer and changes nothing but the host's pointer. -/
def Obligations.ReservedCodesEndWithErrOp : Prop :=
  (∀ p : CommandPort,
    (decode p = .error (.reservedOp p.op) ↔
      p.op ∈ [(0x06 : BitVec 5), 0x07, 0x0E, 0x0F, 0x13, 0x17, 0x18, 0x19, 0x1A, 0x1B, 0x1C, 0x1D, 0x1E, 0x1F]) ∧
    ((∃ e, decode p = .error e) → decode p = .error (.reservedOp p.op))) ∧
  (∀ (s : State) (p : CommandPort), s.hung = false → s.fetch = some p → decode p = .error (.reservedOp p.op) →
    step s = .next { s with outcomes := s.outcomes ++ [.errOp], cp := s.cp + 1 })

/-- Bundles of port values written out from 30_encoding.md R61 and R62 decode to the commands they stand for. -/
def Obligations.SelectCodesDecodeToTheirCommands : Prop :=
  decode { CommandPort.blank 0b00001 with d := 45 } = .ok (.dec2bcd 45) ∧
  decode { CommandPort.blank 0b01000 with addr := ⟨true, 0x51⟩ } = .ok (.init (some 0x51)) ∧
  decode { CommandPort.blank 0b01101 with mode := ⟨true, 3⟩ } = .ok (.ctmode (some 3)) ∧
  decode { CommandPort.blank 0b10100 with hours := ⟨true, 8⟩, minutes := ⟨false, 30⟩, wdmask := 0x06 } =
    .ok (.walmset (some 8) none 0x06) ∧
  decode (CommandPort.blank 0b10010) = .ok .dalmrst

/-- When the command the host presents decodes to `i`, a step is `exec i`, after which the host's pointer advances by
one unless the command gave no outcome (10_state.md R15; log 8). -/
def Obligations.StepRunsTheDecodedCommand : Prop :=
  ∀ (s : State) (p : CommandPort) (i : Instr), s.hung = false → s.fetch = some p → decode p = .ok i →
    (∀ t, exec i s = .next t → step s = .next (if t.hung then t else { t with cp := t.cp + 1 })) ∧
    (∀ r, exec i s = .refused r → step s = .refused r)

/-- With no command presented the block waits unchanged (70_reset_and_hazards.md section 1; the model's choice, log
8), and while a transfer has not returned the run does not continue (the model's choice of form, log 7). -/
def Obligations.BlockWaitsOrDoesNotGoOn : Prop :=
  ∀ s : State, (s.hung = true → step s = .fault .transferNeverReturns) ∧
    (s.hung = false → s.program.length ≤ s.cp → step s = .next s)

/-! ### Codec -/

/-- 40_codec.md R81: tens digit times ten plus units digit, on every byte, with no other effect. -/
def Obligations.Bcd2decGivesTheDecimalValue : Prop :=
  ∀ (s : State) (b : Byte), (Instr.bcd2dec b).opcode = 0b00000 ∧
    exec (.bcd2dec b) s =
      .next { s with outcomes := s.outcomes ++ [.ok (.int (b.toNat / 16 * 10 + b.toNat % 16 : Nat))] }

/-- 40_codec.md R82: on 0 to 99 the two digits packed in one byte, with no other effect; outside, refused (the spec's
own choice, decision D22). -/
def Obligations.Dec2bcdPacksTwoDigits : Prop :=
  ∀ (s : State) (d : Int), (Instr.dec2bcd d).opcode = 0b00001 ∧
    (0 ≤ d → d ≤ 99 →
      exec (.dec2bcd d) s =
        .next { s with outcomes := s.outcomes ++ [.ok (.byte (BitVec.ofInt 8 (16 * (d / 10) + d % 10)))] }) ∧
    (¬(0 ≤ d ∧ d ≤ 99) → exec (.dec2bcd d) s = .refused (.dec2bcdOutsideDomain d))

/-- 40_codec.md R83: the round trip on 0 to 99, and its converse, inside DEC2BCD's domain, on exactly the valid BCD
bytes. -/
def Obligations.BcdRoundTrips : Prop :=
  (∀ d : Int, 0 ≤ d → d ≤ 99 → bcd2dec (dec2bcd d) = d) ∧
  (∀ b : Byte, bcd2dec b ≤ 99 ∧ dec2bcd (bcd2dec b) = b ↔ b.toNat / 16 ≤ 9 ∧ b.toNat % 16 ≤ 9)

/-- 40_codec.md R85 with the formula of R84 (without the printed "- 1": 90_conflicts.md C1): the weekday inside the
domain, refused outside it (93_implementation_defined.md U2). -/
def Obligations.WdayGivesTheWeekday : Prop :=
  ∀ (s : State) (date month year4 : Int),
    let m := if month < 3 then month + 12 else month
    let y := if month < 3 then year4 - 1 else year4
    (Instr.wday date month year4).opcode = 0b00010 ∧
    ((1 ≤ month ∧ month ≤ 12 ∧ 1 ≤ date ∧ date ≤ 31 ∧ 1 ≤ year4) →
      exec (.wday date month year4) s =
        .next { s with outcomes := s.outcomes ++
          [.ok (.int ((date + (13 * m + 8) / 5 + y + y / 4 - y / 100 + y / 400) % 7))] }) ∧
    (¬(1 ≤ month ∧ month ≤ 12 ∧ 1 ≤ date ∧ date ≤ 31 ∧ 1 ≤ year4) →
      exec (.wday date month year4) s = .refused (.wdayOutsideDomain date month year4))

/-- The weekday function is the Gregorian calendar's with 0 = Sunday (40_codec.md R84): 2000-01-01 is a Saturday, and
the day after any date of a year from 1 on has the next weekday. -/
def Obligations.WeekdayFollowsTheGregorianCalendar : Prop :=
  wdayF 1 1 2000 = 6 ∧
  ∀ d m y : Int, 1 ≤ y → 1 ≤ m → m ≤ 12 → 1 ≤ d → d ≤ daysIn m y →
    wdayF (nextDay d m y).1 (nextDay d m y).2.1 (nextDay d m y).2.2 = (wdayF d m y + 1) % 7

/-- The weekday function has period 400 in the year, so adding the century 2000 to a 2-digit year does not change the
weekday (40_codec.md R84, R86). -/
def Obligations.WeekdayDoesNotDependOnTheCentury : Prop :=
  (∀ d m y : Int, wdayF d m (y + 400) = wdayF d m y) ∧ ∀ d m y : Int, wdayF d m (2000 + y) = wdayF d m y

/-- 40_codec.md R87 and R88: bit 7 discarded (decision D11), the source's expression, which is the two's-complement
value of bits 6:0. -/
def Obligations.OfsdecReadsSevenSignedBits : Prop :=
  ∀ (s : State) (b : Byte), (Instr.ofsdec b).opcode = 0b00011 ∧
    exec (.ofsdec b) s = .next { s with outcomes := s.outcomes ++ [.ok (.int
      (if (b &&& 0x7F).toNat < 0x40 then ((b &&& 0x7F).toNat : Int)
        else -(((b &&& 0x7F) ^^^ 0x7F).toNat : Int) - 1))] } ∧
    exec (.ofsdec b) s = .next { s with outcomes := s.outcomes ++ [.ok (.int (b.setWidth 7).toInt)] }

/-- 40_codec.md R89: the low seven bits of a value in range, REJ_VALUE outside it, and the round trip. -/
def Obligations.OfsencMasksOrRejects : Prop :=
  ∀ (s : State) (v : Int), (Instr.ofsenc v).opcode = 0b00100 ∧
    (-62 ≤ v → v ≤ 63 →
      exec (.ofsenc v) s = .next { s with outcomes := s.outcomes ++
        [.ok (.byte (BitVec.ofInt 8 (if 0 ≤ v then v else v + 128)))] } ∧
      exec (.ofsenc v) s = .next { s with outcomes := s.outcomes ++ [.ok (.byte (BitVec.ofInt 8 (v % 128)))] } ∧
      ofsDec (ofsEnc v) = v) ∧
    (v < -62 ∨ 63 < v → exec (.ofsenc v) s = .next { s with outcomes := s.outcomes ++ [.rejValue] })

/-- 40_codec.md R90: sixteen times the index, and every MemRead and MemWrite puts that address of the register it starts
at on the bus, whatever the environment answers and whatever the rest `k` of the command is (the two early ends are those
of 20_memory.md R34 and R35 and of U6). -/
def Obligations.RegaddrShiftsTheIndex : Prop :=
  (∀ (s : State) (idx : BitVec 4), (Instr.regaddr idx).opcode = 0b00101 ∧
    exec (.regaddr idx) s =
      .next { s with outcomes := s.outcomes ++ [.ok (.byte (BitVec.ofNat 8 (16 * idx.toNat)))] }) ∧
  ∀ (s : State) (sp : Span) (k : State → State),
    (∃ t bytes, (s.memRead sp k = k t ∨ s.memRead sp k = t.raise .errBus ∨ s.memRead sp k = t.hang) ∧
      t.bus = s.bus ++ [Transfer.rd s.sa (BitVec.ofNat 8 (16 * sp.start.val)) sp.count bytes]) ∧
    (∃ t, (s.memWrite sp k = k t ∨ s.memWrite sp k = t.raise .errBus ∨ s.memWrite sp k = t.hang) ∧
      t.bus = s.bus ++ [Transfer.wr s.sa (BitVec.ofNat 8 (16 * sp.start.val)) sp.count (s.getXs sp.indices)])

/-- No command faults, and only DEC2BCD and WDAY outside their domains are refused (40_codec.md R82, R85). -/
def Obligations.OnlyTheTwoDomainsAreRefused : Prop :=
  ∀ (i : Instr) (s : State), (∀ r, exec i s ≠ .fault r) ∧ ((∃ r, exec i s = .refused r) ↔ i.inDomain = false)

/-! ### Reset, INIT and the gate -/

/-- 10_state.md R22: the state after reset, for every value of MIRROR_RESET, and 0x00 by default (decision D8). The
slave address has no value; what the model's field holds is no part of it (log 1). -/
def Obligations.ResetStateIsTheTable : Prop :=
  (∀ c : Cfg, let s := State.resetWith c
    (∀ i : RegIndex, s.getX i = c.mirrorReset) ∧ s.scratch = c.mirrorReset ∧ s.slave = none ∧ s.inited = false ∧
      s.sterr = false ∧ s.cp = 0 ∧ s.bus = []) ∧
  State.reset = State.resetWith Cfg.default ∧ Cfg.default.mirrorReset = 0x00 ∧ Cfg.default.wf = true

/-- Reset of the block during a run: the block's state as after reset, no transfer, and the device as it was
(70_reset_and_hazards.md R200, R201; log 16). -/
def Obligations.BlockResetLeavesTheDevice : Prop :=
  ∀ s : State,
    (∀ i : RegIndex, s.blockReset.getX i = s.cfg.mirrorReset) ∧ s.blockReset.scratch = s.cfg.mirrorReset ∧
      s.blockReset.slave = none ∧ s.blockReset.inited = false ∧ s.blockReset.sterr = false ∧ s.blockReset.cp = 0 ∧
      s.blockReset.mem = s.mem ∧ s.blockReset.bus = s.bus ∧ s.blockReset.cfg = s.cfg

/-- 10_state.md R14 (decision D15): `inited` is 0 after reset and 1 after INIT whatever the bus answers; while it is 0
a device command, and while it is 1 a further INIT, ends with ERR_OP and no effect; the codec commands do not depend
on it. -/
def Obligations.InitedGatesTheCommands : Prop :=
  State.reset.inited = false ∧
  (∀ (s t : State) (addr : Option SlaveAddr), s.inited = false → exec (.init addr) s = .next t → t.inited = true) ∧
  (∀ (s : State) (i : Instr), i.isDevice = true → s.inited = false →
    exec i s = .next { s with outcomes := s.outcomes ++ [.errOp] }) ∧
  (∀ (s : State) (addr : Option SlaveAddr), s.inited = true →
    exec (.init addr) s = .next { s with outcomes := s.outcomes ++ [.errOp] }) ∧
  (∀ (s : State) (i : Instr), i.isCodec = true → i.inDomain = true →
    ∃ o, o ≠ .errOp ∧ ∀ v : Bool,
      exec i { s with inited := v } = .next { s with inited := v, outcomes := s.outcomes ++ [o] })

/-- 60_exceptions.md R186 (decisions D15, D18): a command ends with ERR_OP exactly when it is a second INIT or a
device command before INIT, and then nothing else changes. -/
def Obligations.ErrOpExactlyWhenTheStateRefuses : Prop :=
  ∀ (i : Instr) (s t : State), exec i s = .next t →
    ((t.outcomes = s.outcomes ++ [.errOp] ↔
      (i.isInit = true ∧ s.inited = true) ∨ (i.isDevice = true ∧ s.inited = false)) ∧
    (t.outcomes = s.outcomes ++ [.errOp] → t = { s with outcomes := s.outcomes ++ [.errOp] }))

/-- 43_composer.md R132: the status check looks at PON, XSTP and VDET and at no other bit; 0x70 by default. -/
def Obligations.StatusCheckTestsThreeBits : Prop :=
  (∀ (c : Cfg) (c2 : Byte),
    statChk c c2 = true ↔ c2 &&& c.mPon ≠ 0 ∨ c2 &&& c.mXstp ≠ 0 ∨ c2 &&& c.mVdet ≠ 0) ∧
  (∀ (c : Cfg) (c2 m : Byte), m &&& (c.mPon ||| c.mXstp ||| c.mVdet) = 0 → statChk c (c2 ^^^ m) = statChk c c2) ∧
  ∀ c2 : Byte, statChk Cfg.default c2 = ftst c2 0x70

/-- 43_composer.md R133, on every path: INIT sets `inited` and `sa`, reads Control2, and either completes or, on a
power anomaly, clears both control registers with two 1-byte writes and completes with WARN_STATUS; a failing transfer
ends it with ERR_BUS where it stands. A second INIT has no effect. The two 1-byte writes are decision D14's,
the prefix of a failing write D26's (log 6). -/
def Obligations.InitChecksTheStatus : Prop :=
  ∀ (s : State) (addr : Option SlaveAddr), s.cfg.clearShape = .twoOneByte →
    let sa := addr.getD s.cfg.slaveDefault
    let m0 := s.mem.drift (s.upcoming 0).drift
    let c2 := m0.read 15
    let rd := Transfer.rd sa 0xF0 1 [c2]
    let wr1 := Transfer.wr sa 0xE0 1 [0x00]
    let wr2 := Transfer.wr sa 0xF0 1 [0x00]
    let x0 := s.x.set 15 c2
    let x1 := (s.x.set 14 0x00).set 15 0x00
    let m1 := m0.drift (s.upcoming 1).drift
    let m2 := (m1.write 14 0x00).drift (s.upcoming 2).drift
    (Instr.init addr).opcode = 0b01000 ∧
    (s.inited = true → exec (.init addr) s = .next { s with outcomes := s.outcomes ++ [.errOp] }) ∧
    (s.inited = false → answered s 1 → statChk s.cfg c2 = false →
      exec (.init addr) s =
        .next { s.after 1 x0 m0 [rd] (.ok .empty) with inited := true, sa := sa, sterr := false }) ∧
    (s.inited = false → answered s 3 → statChk s.cfg c2 = true →
      exec (.init addr) s = .next { s.after 3 x1 (m2.write 15 0x00) [rd, wr1, wr2] .warnStatus with
        inited := true, sa := sa, sterr := true }) ∧
    (∀ d, s.inited = false → (s.upcoming 0).answer = .failed d →
      exec (.init addr) s =
        .next { s.after 1 s.x m0 [Transfer.rd sa 0xF0 1 []] .errBus with inited := true, sa := sa }) ∧
    (∀ d, s.inited = false → answered s 1 → statChk s.cfg c2 = true → (s.upcoming 1).answer = .failed d →
      exec (.init addr) s = .next { s.after 2 x1 (m1.writeAll [14] ([0x00].take d) []) [rd, wr1] .errBus with
        inited := true, sa := sa, sterr := true }) ∧
    (∀ d, s.inited = false → answered s 2 → statChk s.cfg c2 = true → (s.upcoming 2).answer = .failed d →
      exec (.init addr) s = .next { s.after 3 x1 (m2.writeAll [15] ([0x00].take d) []) [rd, wr1, wr2] .errBus with
        inited := true, sa := sa, sterr := true })

/-- On the static device the two shapes of the defensive clear leave the same device, mirror and outcomes
(43_composer.md R133: "the end state is the same either way"; log 13). -/
def Obligations.ClearShapesAgreeOnAStaticDevice : Prop :=
  ∀ (s : State) (addr : Option SlaveAddr), s.inited = false → staticFor s 3 →
    ∃ t u, exec (.init addr) { s with cfg := { s.cfg with clearShape := .twoOneByte } } = .next t ∧
      exec (.init addr) { s with cfg := { s.cfg with clearShape := .oneTwoByte } } = .next u ∧
      t.mem = u.mem ∧ t.x = u.x ∧ t.sterr = u.sterr ∧ t.outcomes = u.outcomes

/-- After an INIT that failed on the bus, a second INIT is refused, and after a reset of the block INIT runs again
(70_reset_and_hazards.md R203). -/
def Obligations.AFailedInitNeedsAReset : Prop :=
  ∀ (s t : State) (addr addr' : Option SlaveAddr), s.inited = false → s.hung = false →
    exec (.init addr) s = .next t → t.outcomes = s.outcomes ++ [.errBus] →
    exec (.init addr') t = .next { t with outcomes := t.outcomes ++ [.errOp] } ∧
    ∃ u, exec (.init addr') t.blockReset = .next u ∧ u.inited = true ∧
      u.outcomes ≠ t.blockReset.outcomes ++ [.errOp]

/-! ### Datetime -/

/-- 41_datetime.md R100 and R101, on every path: RDDT reads the seven registers in one transfer, keeps the raw bytes
in the mirror (decision D10) and returns them masked and BCD-decoded, year first. Byte `b k` is what its turn in the
transfer finds (20_memory.md R39, decision D26; log 4). -/
def Obligations.RddtReturnsTheMaskedTuple : Prop :=
  ∀ s : State, s.inited = true →
    let e := s.upcoming 0
    let m0 := s.mem.drift e.drift
    let dec := fun (b mask : Byte) => (((b &&& mask).toNat / 16 * 10 + (b &&& mask).toNat % 16 : Nat) : Int)
    let b := fun k : RegIndex => (m0.during e k.val).read k
    let t : DateTime :=
      { year := dec (b 6) 0xFF, month := dec (b 5) 0x1F, date := dec (b 4) 0x3F, weekday := dec (b 3) 0x07,
        hours := dec (b 2) 0x3F, minutes := dec (b 1) 0x7F, seconds := dec (b 0) 0x7F }
    let bytes := [b 0, b 1, b 2, b 3, b 4, b 5, b 6]
    Instr.rddt.opcode = 0b01001 ∧
    (answered s 1 →
      exec .rddt s = .next (s.after 1 (s.setXs [0, 1, 2, 3, 4, 5, 6] bytes).x (m0.during e 6)
        [Transfer.rd s.sa 0x00 7 bytes] (.ok (.dateTime t)))) ∧
    (∀ d, e.answer = .failed d →
      exec .rddt s = .next (s.after 1 s.x m0 [Transfer.rd s.sa 0x00 7 []] .errBus))

/-- 41_datetime.md R102: the validation names the first failing field in the order of the rule (decision D12), and
passes the fields on when none fails, the weekday as supplied. -/
def Obligations.DatetimeIsValidatedInOrder : Prop :=
  (∀ (se mi h d mo y wd : Option Int) (f : Field),
    dtValid se mi h d mo y wd = .error f ↔ firstFailing (datetimeChecks se mi h d mo y wd) = some f) ∧
  ∀ (se mi h d mo y wd : Option Int), firstFailing (datetimeChecks se mi h d mo y wd) = none →
    ∃ t : DateTime, dtValid se mi h d mo y wd = .ok (t, wd) ∧ se = some t.seconds ∧ mi = some t.minutes ∧
      h = some t.hours ∧ d = some t.date ∧ mo = some t.month ∧ y = some t.year

/-- 41_datetime.md R103 and R104, on every path. A failing field ends WRDT with ERR_ARG naming the first one (in the
order of decision D12, log 17), with no transfer and no other change. Otherwise it writes seven BCD bytes with the
24-hour bit, the weekday supplied or computed, then reads Control2 and writes it back with VDET cleared. What a failing
write has delivered is decision D26's prefix (log 6). -/
def Obligations.WrdtWritesTheTimeThenClearsVdet : Prop :=
  (∀ (s : State) (se mi h d mo y wd : Option Int) (f : Field), s.inited = true →
    firstFailing (datetimeChecks se mi h d mo y wd) = some f →
    exec (.wrdt se mi h d mo y wd) s = .next { s with outcomes := s.outcomes ++ [.errArg f] }) ∧
  ∀ (s : State) (se mi h d mo y : Int) (weekday : Option Int), s.inited = true →
    firstFailing (datetimeChecks (some se) (some mi) (some h) (some d) (some mo) (some y) weekday) = none →
    let i := Instr.wrdt (some se) (some mi) (some h) (some d) (some mo) (some y) weekday
    let w := weekday.getD (wdayF d mo (s.cfg.century + y))
    let bytes := [dec2bcd se, dec2bcd mi, dec2bcd h ||| 0x80, dec2bcd w, dec2bcd d, dec2bcd mo, dec2bcd y]
    let span : List RegIndex := [0, 1, 2, 3, 4, 5, 6]
    let m0 := s.mem.drift (s.upcoming 0).drift
    let m1 := (m0.writeAll span bytes (gapsOf (s.upcoming 0))).drift (s.upcoming 1).drift
    let c2 := m1.read 15
    let c2' := c2 &&& ~~~s.cfg.mVdet
    let m2 := m1.drift (s.upcoming 2).drift
    let x0 := (s.setXs span bytes).x
    let x2 := x0.set 15 c2'
    let wr1 := Transfer.wr s.sa 0x00 7 bytes
    let rd := Transfer.rd s.sa 0xF0 1 [c2]
    let wr2 := Transfer.wr s.sa 0xF0 1 [c2']
    i.opcode = 0b01010 ∧
    (answered s 3 → exec i s = .next (s.after 3 x2 (m2.write 15 c2') [wr1, rd, wr2] (.ok .empty))) ∧
    (∀ k, (s.upcoming 0).answer = .failed k →
      exec i s = .next (s.after 1 x0 (m0.writeAll span (bytes.take k) (gapsOf (s.upcoming 0))) [wr1] .errBus)) ∧
    (∀ k, answered s 1 → (s.upcoming 1).answer = .failed k →
      exec i s = .next (s.after 2 x0 m1 [wr1, Transfer.rd s.sa 0xF0 1 []] .errBus)) ∧
    (∀ k, answered s 2 → (s.upcoming 2).answer = .failed k →
      exec i s = .next (s.after 3 x2 (m2.writeAll [15] ([c2'].take k) []) [wr1, rd, wr2] .errBus))

/-- 41_datetime.md R105: on the static device RDDT after a successful WRDT returns the fields written, with the
weekday given or computed. -/
def Obligations.DatetimeRoundTripsOnAStaticDevice : Prop :=
  ∀ (s : State) (se mi h d mo y : Int) (weekday : Option Int), s.inited = true → s.mem.wf = true → staticFor s 4 →
    firstFailing (datetimeChecks (some se) (some mi) (some h) (some d) (some mo) (some y) weekday) = none →
    ∃ t u, exec (.wrdt (some se) (some mi) (some h) (some d) (some mo) (some y) weekday) s = .next t ∧
      t.outcomes = s.outcomes ++ [.ok .empty] ∧ exec .rddt t = .next u ∧
      u.outcomes = t.outcomes ++ [.ok (.dateTime
        { year := y, month := mo, date := d, weekday := weekday.getD (wdayF d mo (s.cfg.century + y)), hours := h,
          minutes := mi, seconds := se })]

/-! ### Offset -/

/-- 42_offset.md R120, on every path: OFSGET reads register 0x07 and returns the signed value of bits 6:0 (decision
D11). -/
def Obligations.OfsgetReturnsTheSignedTrim : Prop :=
  ∀ s : State, s.inited = true →
    let m0 := s.mem.drift (s.upcoming 0).drift
    let b := m0.read 7
    Instr.ofsget.opcode = 0b01011 ∧
    (answered s 1 →
      exec .ofsget s =
        .next (s.after 1 (s.x.set 7 b) m0 [Transfer.rd s.sa 0x70 1 [b]] (.ok (.int (b.setWidth 7).toInt)))) ∧
    (∀ d, (s.upcoming 0).answer = .failed d →
      exec .ofsget s = .next (s.after 1 s.x m0 [Transfer.rd s.sa 0x70 1 []] .errBus))

/-- 42_offset.md R122, on every path: OFSSET writes the low seven bits of a value in range, and outside the range
reports REJ_VALUE with no transfer and no other change. What a failing write has delivered is decision D26's prefix
(log 6). -/
def Obligations.OfssetWritesOrRejects : Prop :=
  ∀ (s : State) (v : Int), s.inited = true →
    let m0 := s.mem.drift (s.upcoming 0).drift
    let b : Byte := BitVec.ofInt 8 (v % 128)
    (Instr.ofsset v).opcode = 0b01100 ∧
    (-62 ≤ v → v ≤ 63 → answered s 1 →
      exec (.ofsset v) s =
        .next (s.after 1 (s.x.set 7 b) (m0.write 7 b) [Transfer.wr s.sa 0x70 1 [b]] (.ok .empty))) ∧
    (∀ k, -62 ≤ v → v ≤ 63 → (s.upcoming 0).answer = .failed k →
      exec (.ofsset v) s =
        .next (s.after 1 (s.x.set 7 b) (m0.writeAll [7] ([b].take k) []) [Transfer.wr s.sa 0x70 1 [b]] .errBus)) ∧
    (v < -62 ∨ 63 < v → exec (.ofsset v) s = .next { s with outcomes := s.outcomes ++ [.rejValue] })

/-- 42_offset.md R123: on the static device OFSGET returns what an accepted OFSSET set, and a rejected one leaves the
register, the mirror and the next OFSGET as they were. -/
def Obligations.OffsetRoundTripsOnAStaticDevice : Prop :=
  ∀ (s : State) (v : Int), s.inited = true → s.mem.wf = true → staticFor s 2 →
    ∃ t u, exec (.ofsset v) s = .next t ∧ exec .ofsget t = .next u ∧
      (-62 ≤ v → v ≤ 63 → u.outcomes = s.outcomes ++ [.ok .empty, .ok (.int v)]) ∧
      (v < -62 ∨ 63 < v → t.mem = s.mem ∧ t.x = s.x ∧
        ∃ u', exec .ofsget s = .next u' ∧ u'.outcomes.getLast? = u.outcomes.getLast?)

/-! ### The composer -/

/-- 43_composer.md R130 and R131: FSET and FCLR are FMUX with all ones and all zeros, FTST sees a set bit, and the
bits outside the mask pass through. -/
def Obligations.FieldFunctionsPassOtherBitsThrough : Prop :=
  ∀ r m f : Byte,
    fset r m = fmux r m 0xFF ∧ fclr r m = fmux r m 0x00 ∧ (ftst r m = true ↔ ∃ k < 8, r.getLsbD k ∧ m.getLsbD k) ∧
    fmux r m f &&& m = f &&& m ∧ fset r m &&& ~~~m = r &&& ~~~m ∧ fclr r m &&& ~~~m = r &&& ~~~m ∧
    fmux r m f &&& ~~~m = r &&& ~~~m

/-- 43_composer.md R134: bit `k` of CTPLACE is 0 outside CT_MASK, and at a position of CT_MASK it is the code bit
whose number is the count of mask positions below it; with the default mask the code itself. -/
def Obligations.CtplacePutsTheCodeOnTheMask : Prop :=
  (∀ (c : Cfg) (code : ModeCode) (k : Nat), k < 8 →
    (ctPlace c code).getLsbD k =
      (c.ctMask.getLsbD k && code.getLsbD ((List.range k).filter fun j => c.ctMask.getLsbD j).length)) ∧
  (∀ (c : Cfg) (code : ModeCode), ctPlace c code &&& ~~~c.ctMask = 0) ∧
  ∀ code : ModeCode, ctPlace Cfg.default code = code.setWidth 8

/-- 43_composer.md R135 and R136, on every path: CTMODE reads Control1, clears the selector field and sets it only for
1HZ and 2HZ, and writes Control1 back, even unchanged. What a failing write has delivered is decision D26's prefix (log
6). -/
def Obligations.CtmodeRewritesOnlyTheSelector : Prop :=
  ∀ (s : State) (mode : Option ModeCode), s.inited = true →
    let m0 := s.mem.drift (s.upcoming 0).drift
    let c1 := m0.read 14
    let c1' :=
      if mode = some s.cfg.ct1Hz ∨ mode = some s.cfg.ct2Hz then
        (c1 &&& ~~~s.cfg.ctMask) ||| (ctPlace s.cfg (mode.getD 0) &&& s.cfg.ctMask)
      else c1 &&& ~~~s.cfg.ctMask
    let m1 := m0.drift (s.upcoming 1).drift
    let rd := Transfer.rd s.sa 0xE0 1 [c1]
    let wr := Transfer.wr s.sa 0xE0 1 [c1']
    (Instr.ctmode mode).opcode = 0b01101 ∧
    (answered s 2 →
      exec (.ctmode mode) s = .next (s.after 2 (s.x.set 14 c1') (m1.write 14 c1') [rd, wr] (.ok .empty))) ∧
    (∀ d, (s.upcoming 0).answer = .failed d →
      exec (.ctmode mode) s = .next (s.after 1 s.x m0 [Transfer.rd s.sa 0xE0 1 []] .errBus)) ∧
    (∀ d, answered s 1 → (s.upcoming 1).answer = .failed d →
      exec (.ctmode mode) s =
        .next (s.after 2 (s.x.set 14 c1') (m1.writeAll [14] ([c1'].take d) []) [rd, wr] .errBus))

/-! ### Alarms -/

/-- 44_alarms.md R150: minutes are tested before hours (decision D12), an absent operand counts as 0, and the bytes
are the BCD values without a 24-hour bit. -/
def Obligations.AlarmTimeIsValidatedAndEncoded : Prop :=
  ∀ hours minutes : Option Int,
    almTime hours minutes =
      if failsOptional 0 59 minutes then .error .minutes
      else if failsOptional 0 23 hours then .error .hours
      else .ok (BitVec.ofInt 8 (16 * (minutes.getD 0 / 10) + minutes.getD 0 % 10),
        BitVec.ofInt 8 (16 * (hours.getD 0 / 10) + hours.getD 0 % 10))

/-- 44_alarms.md R151, on every path: for valid operands DALMSET sets DALE, clears DAFG, then writes minute and hour;
with a failing operand it ends with ERR_ARG after the Control block read (decisions D12, D13; log 17). Failing writes:
decision D26, log 6. -/
def Obligations.DalmsetArmsTheDailyAlarm : Prop :=
  ∀ (s : State) (hours minutes : Option Int), s.inited = true →
    (Instr.dalmset hours minutes).opcode = 0b10000 ∧
    (∀ bm bh : Byte, almTime hours minutes = .ok (bm, bh) →
      RewritesControlThenAlarm (.dalmset hours minutes) s (fun c1 => c1 ||| s.cfg.mDale)
        (fun c2 => c2 &&& ~~~s.cfg.mDafg) .dailyAlarm [bm, bh]) ∧
    (∀ f : Field, almTime hours minutes = .error f → StopsAfterControlRead (.dalmset hours minutes) s (.errArg f))

/-- 44_alarms.md R152, on every path: DALMCLR clears DALE and DAFG, then writes minute and hour 0. Failing
writes: decision D26, log 6. -/
def Obligations.DalmclrDisarmsTheDailyAlarm : Prop :=
  ∀ s : State, s.inited = true → Instr.dalmclr.opcode = 0b10001 ∧
    RewritesControlThenAlarm .dalmclr s (fun c1 => c1 &&& ~~~s.cfg.mDale) (fun c2 => c2 &&& ~~~s.cfg.mDafg)
      .dailyAlarm [0x00, 0x00]

/-- 44_alarms.md R153, on every path: DALMRST sets DALE and clears DAFG and touches no alarm register.
Failing write: decision D26, log 6. -/
def Obligations.DalmrstRearmsTheDailyAlarm : Prop :=
  ∀ s : State, s.inited = true → Instr.dalmrst.opcode = 0b10010 ∧
    RewritesControl .dalmrst s (fun c1 => c1 ||| s.cfg.mDale) (fun c2 => c2 &&& ~~~s.cfg.mDafg)

/-- 44_alarms.md R155, on every path: for valid operands WALMSET sets WALE, clears WAFG, then writes minute, hour and
the weekday byte, which for a zero mask is the mirror's `x[10]`; with a failing operand it ends with ERR_ARG after the
Control block read (decisions D12, D13; log 17). Failing writes: decision D26, log 6. -/
def Obligations.WalmsetArmsTheWeeklyAlarm : Prop :=
  ∀ (s : State) (hours minutes : Option Int) (wdmask : BitVec 7), s.inited = true →
    (Instr.walmset hours minutes wdmask).opcode = 0b10100 ∧
    (∀ bm bh : Byte, almTime hours minutes = .ok (bm, bh) →
      RewritesControlThenAlarm (.walmset hours minutes wdmask) s (fun c1 => c1 ||| s.cfg.mWale)
        (fun c2 => c2 &&& ~~~s.cfg.mWafg) .weeklyAlarm
        [bm, bh, if wdmask = 0 then s.getX 10 else wdmask.setWidth 8]) ∧
    (∀ f : Field, almTime hours minutes = .error f →
      StopsAfterControlRead (.walmset hours minutes wdmask) s (.errArg f))

/-- 44_alarms.md R156, on every path: WALMCLR clears WALE and WAFG, then writes minute and hour 0 and the mirror's
`x[10]` (decision D31). Failing writes: decision D26, log 6. -/
def Obligations.WalmclrDisarmsTheWeeklyAlarm : Prop :=
  ∀ s : State, s.inited = true → Instr.walmclr.opcode = 0b10101 ∧
    RewritesControlThenAlarm .walmclr s (fun c1 => c1 &&& ~~~s.cfg.mWale) (fun c2 => c2 &&& ~~~s.cfg.mWafg)
      .weeklyAlarm [0x00, 0x00, s.getX 10]

/-- 44_alarms.md R157, on every path: WALMRST sets WALE and clears WAFG and touches no alarm register.
Failing write: decision D26, log 6. -/
def Obligations.WalmrstRearmsTheWeeklyAlarm : Prop :=
  ∀ s : State, s.inited = true → Instr.walmrst.opcode = 0b10110 ∧
    RewritesControl .walmrst s (fun c1 => c1 ||| s.cfg.mWale) (fun c2 => c2 &&& ~~~s.cfg.mWafg)

/-- 44_alarms.md R159: on the static device two disables in a row issue the same three transfers but for the Control
block found, leave the enable and the flag clear and the time registers 0, and the second leaves the device unchanged.
The weekly alarm's weekday byte is rewritten to the same `x[10]` both times. -/
def Obligations.DisableIsIdempotentOnAStaticDevice : Prop :=
  ∀ s : State, s.inited = true → s.mem.wf = true → staticFor s 6 →
    (∃ t u, exec .dalmclr s = .next t ∧ exec .dalmclr t = .next u ∧ u.mem = t.mem ∧
      t.mem.read 14 &&& s.cfg.mDale = 0 ∧ t.mem.read 15 &&& s.cfg.mDafg = 0 ∧ t.mem.read 11 = 0x00 ∧
      t.mem.read 12 = 0x00 ∧ issuedSince s t = 3 ∧ (u.bus.drop t.bus.length).map (fun r => (r.kind, r.wire, r.count)) =
        (t.bus.drop s.bus.length).map (fun r => (r.kind, r.wire, r.count)) ∧
      (u.bus.drop t.bus.length).tail.map (fun r => r.bytes) = (t.bus.drop s.bus.length).tail.map (fun r => r.bytes)) ∧
    (∃ t u, exec .walmclr s = .next t ∧ exec .walmclr t = .next u ∧ u.mem = t.mem ∧
      t.mem.read 14 &&& s.cfg.mWale = 0 ∧ t.mem.read 15 &&& s.cfg.mWafg = 0 ∧ t.mem.read 8 = 0x00 ∧
      t.mem.read 9 = 0x00 ∧ t.mem.read 10 = s.getX 10 ∧ u.mem.read 10 = s.getX 10 ∧ issuedSince s t = 3 ∧
      (u.bus.drop t.bus.length).map (fun r => (r.kind, r.wire, r.count)) =
        (t.bus.drop s.bus.length).map (fun r => (r.kind, r.wire, r.count)) ∧
      (u.bus.drop t.bus.length).tail.map (fun r => r.bytes) = (t.bus.drop s.bus.length).tail.map (fun r => r.bytes))

/-- 44_alarms.md R160: on the static device a WALMSET without a mask leaves a weekday register that equals `x[10]` as
it was, and a nonzero mask overwrites it. -/
def Obligations.WeekdayMaskIsKeptOrOverwritten : Prop :=
  ∀ (s : State) (hours minutes : Option Int) (wdmask : BitVec 7) (bm bh : Byte), s.inited = true →
    s.mem.wf = true → staticFor s 3 → almTime hours minutes = .ok (bm, bh) →
    ∃ t, exec (.walmset hours minutes wdmask) s = .next t ∧
      (wdmask = 0 → s.mem.read 10 = s.getX 10 → t.mem.read 10 = s.mem.read 10) ∧
      (wdmask = 0 → t.mem.read 10 = s.getX 10) ∧
      (wdmask ≠ 0 → t.mem.read 10 = wdmask.setWidth 8 ∧ t.getX 10 = wdmask.setWidth 8)

/-! ### Every command -/

/-- 30_encoding.md R67: what each pseudo-operation expands to, CONSTRUCT with a reset of the block before it. -/
def Obligations.PseudoOperationsExpandToOneCommand : Prop :=
  (∀ y mo d wd h mi s : Int,
    expand (.wrtup y mo d wd h mi s) = .wrdt (some s) (some mi) (some h) (some d) (some mo) (some y) (some wd) ∧
    expand (.wrnow y mo d wd h mi s) =
      .wrdt (some s) (some mi) (some h) (some d) (some mo) (some (y % 100)) (some wd)) ∧
  expand (.offset none) = .ofsget ∧ (∀ v, expand (.offset (some v)) = .ofsset v) ∧
  (∀ hours minutes : Option Int, expand (.dailyAlarm hours minutes) =
    if hours.isNone ∧ minutes.isNone then .dalmclr else .dalmset hours minutes) ∧
  (∀ (hours minutes : Option Int) (wd : Option (BitVec 7)), expand (.weeklyAlarm hours minutes wd) =
    if hours.isNone ∧ minutes.isNone ∧ wd.isNone then .walmclr else .walmset hours minutes (wd.getD 0)) ∧
  ∀ (addr : Option SlaveAddr) (s : State),
    expand (.construct addr) = .init addr ∧ beforePseudo (.construct addr) s = s.blockReset

/-- 30_encoding.md R63: the status code of each outcome, and the value beside it: the result with OK, the field's
register index with ERR_ARG. -/
def Obligations.ResultPortShowsStatusAndFieldCodes : Prop :=
  (∀ v, (CmdOutcome.ok v).status = 0 ∧ (CmdOutcome.ok v).portValue = v) ∧ CmdOutcome.warnStatus.status = 1 ∧
  CmdOutcome.rejValue.status = 2 ∧ CmdOutcome.errBus.status = 5 ∧ CmdOutcome.errOp.status = 6 ∧
  (∀ f, (CmdOutcome.errArg f).status = 4 ∧ (CmdOutcome.errArg f).portValue = .int f.code ∧
    (f.code = 0 ↔ f = .seconds) ∧ (f.code = 1 ↔ f = .minutes) ∧ (f.code = 2 ↔ f = .hours) ∧
    (f.code = 3 ↔ f = .weekday) ∧ (f.code = 4 ↔ f = .date) ∧ (f.code = 5 ↔ f = .month) ∧ (f.code = 6 ↔ f = .year)) ∧
  ∀ o : CmdOutcome, o.isError = true ↔ 3 ≤ o.status

/-- A command gives exactly one outcome, or none when a transfer of it never returned (the model's form, log 7;
00_scope.md R7, 60_exceptions.md R174, R177). -/
def Obligations.EveryCommandGivesOneOutcomeOrHangs : Prop :=
  ∀ (i : Instr) (s t : State), s.hung = false → exec i s = .next t →
    ((t.hung = false ∧ ∃ o, t.outcomes = s.outcomes ++ [o]) ∨ (t.hung = true ∧ t.outcomes = s.outcomes)) ∧
    (t.hung = true ↔ ∃ k n, issuedSince s t = k + 1 ∧ (s.upcoming k).answer = .never n)

/-- A command ends with ERR_BUS exactly when the last transfer it issued failed, every transfer before it was
answered, and no transfer follows (60_exceptions.md R174). That each transfer uses one event of the queue `env` is the
model's own form of the environment (DESIGN CHOICE, log 4). -/
def Obligations.ErrBusExactlyWhenATransferFailed : Prop :=
  ∀ (i : Instr) (s t : State), exec i s = .next t →
    (t.outcomes = s.outcomes ++ [.errBus] ↔
      ∃ k n, issuedSince s t = k + 1 ∧ (∀ j < k, (s.upcoming j).answer = .done) ∧ (s.upcoming k).answer = .failed n) ∧
    t.env = s.env.drop (issuedSince s t)

/-- 20_memory.md R32: the transfers of every command are a beginning of its row of the table, the whole row when it
ends with OK (INIT: with WARN_STATUS, or its read alone); one that ends with ERR_ARG has issued no write. Each uses
`sa`. -/
def Obligations.TransfersFollowTheTable : Prop :=
  ∀ (i : Instr) (s t : State), exec i s = .next t →
    ∃ ts, t.bus = s.bus ++ ts ∧ (∀ r ∈ ts, r.slave = t.sa) ∧
      (ts.map fun r => (r.kind, r.wire, r.count)) <+: i.transfers s.cfg.clearShape ∧
      (∀ v, t.outcomes = s.outcomes ++ [.ok v] → i.isInit = false →
        (ts.map fun r => (r.kind, r.wire, r.count)) = i.transfers s.cfg.clearShape) ∧
      (t.outcomes = s.outcomes ++ [.warnStatus] →
        i.isInit = true ∧ (ts.map fun r => (r.kind, r.wire, r.count)) = i.transfers s.cfg.clearShape) ∧
      (∀ v, t.outcomes = s.outcomes ++ [.ok v] → i.isInit = true → ts.length = 1) ∧
      (t.outcomes = s.outcomes ++ [.rejValue] → ts = []) ∧
      (∀ f, t.outcomes = s.outcomes ++ [.errArg f] → ∀ r ∈ ts, r.kind = .read)

/-- A command changes no mirror byte but those its row of 10_state.md R11 names. -/
def Obligations.MirrorChangesOnlyAsTheTableSays : Prop :=
  ∀ (i : Instr) (s t : State), exec i s = .next t → ∀ j : RegIndex, j ∉ i.mirrorWrites → t.getX j = s.getX j

/-- A command changes no device register but those it stores to (20_memory.md R32) and those the environment itself
changed before or during one of its transfers. -/
def Obligations.DeviceChangesOnlyWhereTheCommandStores : Prop :=
  ∀ (i : Instr) (s t : State), exec i s = .next t → ∀ a : RegIndex, a ∉ i.deviceWrites →
    undrifted s (issuedSince s t) a → t.mem.read a = s.mem.read a

/-- No command changes `scratch`, the parameters, the host's pointer or its list; only INIT changes `inited`, `sa` and
`sterr` (10_state.md R12 to R16). -/
def Obligations.OnlyInitWritesTheConstructionState : Prop :=
  ∀ (i : Instr) (s t : State), exec i s = .next t →
    t.scratch = s.scratch ∧ t.cfg = s.cfg ∧ t.cp = s.cp ∧ t.program = s.program ∧
    (i.isInit = false → t.inited = s.inited ∧ t.sa = s.sa ∧ t.sterr = s.sterr)

/-- In canonical device memory (10_state.md R19): no command leaves a Control2 bit set on the device that was clear,
unless the environment changes Control2 itself; and of the bits only INIT's clear removes, a command other than INIT
keeps every one. -/
def Obligations.Control2BitsAreNeverSet : Prop :=
  ∀ (i : Instr) (s t : State), exec i s = .next t → s.mem.wf = true →
    undrifted s (issuedSince s t) 15 →
    t.mem.read 15 &&& ~~~(s.mem.read 15) = 0 ∧
    (s.cfg.wf = true → i.isInit = false →
      let kept := s.cfg.mBank ||| s.cfg.mXstp ||| s.cfg.mPon ||| s.cfg.mEdfg ||| s.cfg.mCtfg
      t.mem.read 15 &&& kept = s.mem.read 15 &&& kept)

/-- 10_state.md R17: a command other than INIT keeps the debounce, event-detect and test bits of Control1 on the
device, unless the environment changes Control1 itself; only CTMODE changes the selector. -/
def Obligations.Control1KeepsTheFieldsNoCommandSets : Prop :=
  ∀ (i : Instr) (s t : State), exec i s = .next t → s.mem.wf = true →
    undrifted s (issuedSince s t) 14 → s.cfg.wf = true → i.isInit = false →
    let kept := s.cfg.mDbsl ||| s.cfg.mEden ||| s.cfg.mTest
    t.mem.read 14 &&& kept = s.mem.read 14 &&& kept ∧
    (i.opcode ≠ 0x0D → t.mem.read 14 &&& s.cfg.ctMask = s.mem.read 14 &&& s.cfg.ctMask)

/-- 10_state.md R23: what a command does outside the mirror depends on no mirror byte it finds, `x[10]` excepted, and
`x[10]` itself ends the same; so every step keeps two runs apart in no more than the other mirror bytes. -/
def Obligations.OnlyWeekdayMaskOfTheMirrorIsEverUsed : Prop :=
  ∀ s s' : State, sameButMirror s s' →
    (∀ i : Instr, answersAlike (exec i s) (exec i s')) ∧ answersAlike (step s) (step s')

/-! ### Every run -/

/-- The invariant holds after reset, for every value of the parameters. -/
def Obligations.InvariantAfterReset : Prop := ∀ c : Cfg, Inv (State.resetWith c)

/-- Every step keeps the invariant, from every state that has it. -/
def Obligations.EveryStepKeepsTheInvariant : Prop := ∀ s t : State, Inv s → step s = .next t → Inv t
end

