-- ==== Sys2Proof/Laws/Memory.lean ====
section
/-! SUPPORT. Laws of the device register space: read after write, the canonical form, writing what is there. -/

namespace Sys2Proof.Machine

/-! ### Search and insertion -/

theorem Memory.lookup_insert_ne {a a' : Nat} (h : a' ≠ a) (b : Byte) (m : Memory) :
    Memory.lookup a' (Memory.insert a b m) = Memory.lookup a' m := by
  induction m with
  | nil => by_cases hb : b = Memory.unlisted <;> simp [Memory.insert, Memory.lookup, hb, h.symm]
  | cons p rest ih =>
    obtain ⟨k, v⟩ := p
    unfold Memory.insert
    split
    · simp [Memory.lookup, ih]
    · split
      · next _ hk => subst hk; split <;> simp [Memory.lookup, h.symm]
      · split <;> simp [Memory.lookup, h.symm]

/-- No key of `m` is `a` or lies below it. -/
def Memory.above (a : Nat) (m : Memory) : Prop := ∀ p ∈ m, a < p.1

theorem Memory.lookup_of_above {a : Nat} {m : Memory} (h : Memory.above a m) :
    Memory.lookup a m = Memory.unlisted := by
  induction m with
  | nil => rfl
  | cons p rest ih =>
    have hp : a < p.1 := h p (by simp)
    have hr : Memory.above a rest := fun q hq => h q (by simp [hq])
    simp [Memory.lookup, Nat.ne_of_gt hp, ih hr]

/-- The canonical form, as a proposition over the list. -/
theorem Memory.wf_iff (m : Memory) :
    m.wf = true ↔ m.Pairwise (fun p q => p.1 < q.1) ∧ ∀ p ∈ m, p.1 < 16 ∧ p.2 ≠ Memory.unlisted := by
  simp [Memory.wf]

theorem Memory.wf_nil : Memory.wf [] = true := by decide

theorem Memory.wf_cons {k : Nat} {v : Byte} {rest : Memory} :
    Memory.wf ((k, v) :: rest) = true ↔
      Memory.above k rest ∧ k < 16 ∧ v ≠ Memory.unlisted ∧ Memory.wf rest = true := by
  simp only [Memory.wf_iff, List.pairwise_cons, List.mem_cons, forall_eq_or_imp, Memory.above]
  tauto

theorem Memory.mem_insert {a : Nat} {b : Byte} {m : Memory} {p : Host.Cell}
    (h : p ∈ Memory.insert a b m) : p = (a, b) ∨ p ∈ m := by
  induction m with
  | nil =>
    unfold Memory.insert at h
    split at h <;> simp_all
  | cons q rest ih =>
    obtain ⟨k, v⟩ := q
    unfold Memory.insert at h
    split at h
    · rcases List.mem_cons.mp h with h | h
      · simp [h]
      · rcases ih h with h | h <;> simp [h]
    · split at h
      · split at h
        · simp [h]
        · rcases List.mem_cons.mp h with h | h <;> simp [h]
      · split at h
        · exact .inr h
        · rcases List.mem_cons.mp h with h | h <;> simp_all

theorem Memory.above_insert {a c : Nat} {b : Byte} {m : Memory} (hc : c < a) (h : Memory.above c m) :
    Memory.above c (Memory.insert a b m) := by
  intro p hp
  rcases Memory.mem_insert hp with rfl | hp
  · exact hc
  · exact h p hp

theorem Memory.wf_insert {a : Nat} (ha : a < 16) (b : Byte) {m : Memory} (h : m.wf = true) :
    Memory.wf (Memory.insert a b m) = true := by
  induction m with
  | nil =>
    by_cases hb : b = Memory.unlisted
    · simp [Memory.insert, hb, Memory.wf_nil]
    · simp [Memory.insert, hb, Memory.wf_cons, Memory.above, ha, Memory.wf_nil]
  | cons p rest ih =>
    obtain ⟨k, v⟩ := p
    have hkv := Memory.wf_cons.mp h
    obtain ⟨habove, hk, hv, hrest⟩ := hkv
    unfold Memory.insert
    split
    · next hlt => exact Memory.wf_cons.mpr ⟨Memory.above_insert hlt habove, hk, hv, ih hrest⟩
    · next hlt =>
      split
      · next heq =>
        subst heq
        split
        · exact hrest
        · next hb => exact Memory.wf_cons.mpr ⟨habove, ha, hb, hrest⟩
      · next hne =>
        split
        · exact h
        · next hb =>
          refine Memory.wf_cons.mpr ⟨?_, ha, hb, h⟩
          intro p hp
          rcases List.mem_cons.mp hp with rfl | hp
          · show a < k; omega
          · exact Nat.lt_trans (by omega) (habove p hp)

theorem Memory.lookup_insert_same {a : Nat} (b : Byte) {m : Memory} (h : m.wf = true) :
    Memory.lookup a (Memory.insert a b m) = b := by
  induction m with
  | nil => by_cases hb : b = Memory.unlisted <;> simp [Memory.insert, Memory.lookup, hb]
  | cons p rest ih =>
    obtain ⟨k, v⟩ := p
    obtain ⟨habove, -, -, hrest⟩ := Memory.wf_cons.mp h
    unfold Memory.insert
    split
    · next hlt => simp [Memory.lookup, Nat.ne_of_lt hlt, ih hrest]
    · next hlt =>
      split
      · next heq =>
        subst heq
        split
        · next hb => rw [Memory.lookup_of_above habove, hb]
        · simp [Memory.lookup]
      · next hne =>
        split
        · next hb =>
          rw [hb]
          apply Memory.lookup_of_above
          intro q hq
          rcases List.mem_cons.mp hq with rfl | hq
          · show a < k; omega
          · exact Nat.lt_trans (by omega) (habove q hq)
        · simp [Memory.lookup]

theorem Memory.insert_lookup_self {a : Nat} {m : Memory} (h : m.wf = true) :
    Memory.insert a (Memory.lookup a m) m = m := by
  induction m with
  | nil => simp [Memory.insert, Memory.lookup]
  | cons p rest ih =>
    obtain ⟨k, v⟩ := p
    obtain ⟨habove, -, hv, hrest⟩ := Memory.wf_cons.mp h
    by_cases hlt : k < a
    · simp [Memory.insert, Memory.lookup, hlt, Nat.ne_of_lt hlt, ih hrest]
    · by_cases heq : k = a
      · subst heq; simp [Memory.insert, Memory.lookup, hv]
      · have : Memory.above a rest := fun q hq => Nat.lt_trans (by omega) (habove q hq)
        simp [Memory.insert, Memory.lookup, hlt, heq, Memory.lookup_of_above this]

/-! ### One register -/

/-- A read after a write to another register gives what was there. -/
theorem Memory.read_write_ne (m : Memory) {a a' : RegIndex} (b : Byte) (h : a' ≠ a) :
    (m.write a b).read a' = m.read a' :=
  Memory.lookup_insert_ne (fun e => h (Fin.ext e)) b m

/-- A read after a write to the same register gives the byte written. -/
theorem Memory.read_write_same {m : Memory} (h : m.wf = true) (a : RegIndex) (b : Byte) :
    (m.write a b).read a = b :=
  Memory.lookup_insert_same b h

/-- Both in one: the register written reads as the byte, every other as before. -/
theorem Memory.read_write {m : Memory} (h : m.wf = true) (a a' : RegIndex) (b : Byte) :
    (m.write a b).read a' = if a' = a then b else m.read a' := by
  by_cases e : a' = a
  · simp [e, Memory.read_write_same h]
  · simp [e, Memory.read_write_ne m b e]

/-- A write keeps the canonical form. -/
theorem Memory.wf_write {m : Memory} (h : m.wf = true) (a : RegIndex) (b : Byte) : (m.write a b).wf = true :=
  Memory.wf_insert a.isLt b h

/-- Writing what a register holds changes nothing. -/
theorem Memory.write_read_self {m : Memory} (h : m.wf = true) (a : RegIndex) : m.write a (m.read a) = m :=
  Memory.insert_lookup_self h

/-! ### Several registers -/

@[simp] theorem Memory.drift_nil (m : Memory) : m.drift [] = m := rfl

@[simp] theorem Memory.drift_cons (m : Memory) (a : RegIndex) (b : Byte) (rest : List (RegIndex × Byte)) :
    m.drift ((a, b) :: rest) = (m.write a b).drift rest := rfl

/-- The environment's changes one list after another. -/
theorem Memory.drift_append (m : Memory) (l l' : Updates) : m.drift (l ++ l') = (m.drift l).drift l' := by
  induction l generalizing m with
  | nil => rfl
  | cons p rest ih => exact ih (m.write p.1 p.2)

@[simp] theorem Memory.writeAll_nil (m : Memory) (bs : List Byte) (gaps : List Updates) : m.writeAll [] bs gaps = m := by
  cases bs <;> rfl

@[simp] theorem Memory.writeAll_nil_bytes (m : Memory) (as : List RegIndex) (gaps : List Updates) :
    m.writeAll as [] gaps = m := by cases as <;> rfl

@[simp] theorem Memory.writeAll_cons (m : Memory) (a : RegIndex) (b : Byte) (as : List RegIndex) (bs : List Byte)
    (gaps : List Updates) :
    m.writeAll (a :: as) (b :: bs) gaps = ((m.drift (gaps.headD [])).write a b).writeAll as bs gaps.tail := rfl

/-- A write of one byte has no changes in between. -/
theorem Memory.writeAll_one (m : Memory) (a : RegIndex) (bs : List Byte) (within : List Updates) :
    m.writeAll [a] bs ([] :: within) = m.writeAll [a] bs [] := by
  cases bs with
  | nil => rfl
  | cons b bs => simp

@[simp] theorem Memory.readAll_nil (m : Memory) (gaps : List Updates) : m.readAll [] gaps = [] := rfl

@[simp] theorem Memory.readAll_cons (m : Memory) (a : RegIndex) (as : List RegIndex) (gaps : List Updates) :
    m.readAll (a :: as) gaps =
      (m.drift (gaps.headD [])).read a :: (m.drift (gaps.headD [])).readAll as gaps.tail := rfl

/-- With no changes in between, a read returns what the registers hold. -/
theorem Memory.readAll_no_gaps (m : Memory) (as : List RegIndex) : m.readAll as [] = as.map m.read := by
  induction as with
  | nil => rfl
  | cons a as ih => simp [ih]

/-- A read returns a byte for each register. -/
@[simp] theorem Memory.length_readAll (m : Memory) (as : List RegIndex) (gaps : List Updates) :
    (m.readAll as gaps).length = as.length := by
  induction as generalizing m gaps with
  | nil => rfl
  | cons a as ih => simp [ih]

/-- The environment's changes keep the canonical form. -/
theorem Memory.wf_drift {m : Memory} (h : m.wf = true) (l : Updates) : (m.drift l).wf = true := by
  induction l generalizing m with
  | nil => exact h
  | cons p rest ih => exact ih (Memory.wf_write h p.1 p.2)

/-- A transfer's bytes, or any prefix of them, keep the canonical form. -/
theorem Memory.wf_writeAll {m : Memory} (h : m.wf = true) (as : List RegIndex) (bs : List Byte)
    (gaps : List Updates) : (m.writeAll as bs gaps).wf = true := by
  induction as generalizing m bs gaps with
  | nil => simpa using h
  | cons a as ih =>
    cases bs with
    | nil => simpa using h
    | cons b bs => exact ih (Memory.wf_write (Memory.wf_drift h _) a b) bs gaps.tail

/-- The environment's changes leave every register they do not name. -/
theorem Memory.read_drift_of_ne (m : Memory) {l : Updates} {a : RegIndex} (h : ∀ p ∈ l, p.1 ≠ a) :
    (m.drift l).read a = m.read a := by
  induction l generalizing m with
  | nil => rfl
  | cons p rest ih =>
    rw [show m.drift (p :: rest) = (m.write p.1 p.2).drift rest from rfl,
      ih _ fun q hq => h q (List.mem_cons_of_mem _ hq)]
    exact Memory.read_write_ne m p.2 (h p (by simp)).symm

/-- A transfer leaves every register outside its span that the environment leaves meanwhile. -/
theorem Memory.read_writeAll_of_not_mem (m : Memory) {as : List RegIndex} {a : RegIndex} (h : a ∉ as)
    (bs : List Byte) {gaps : List Updates} (hg : ∀ g ∈ gaps, ∀ p ∈ g, p.1 ≠ a) :
    (m.writeAll as bs gaps).read a = m.read a := by
  induction as generalizing m bs gaps with
  | nil => simp
  | cons c as ih =>
    cases bs with
    | nil => simp
    | cons b bs =>
      rw [Memory.writeAll_cons, ih _ (fun hm => h (by simp [hm])) bs fun g hm => hg g (List.mem_of_mem_tail hm),
        Memory.read_write_ne _ b fun e => h (by simp [e])]
      cases gaps with
      | nil => rfl
      | cons g gaps => exact Memory.read_drift_of_ne m (hg g (by simp))

end Sys2Proof.Machine
end

