-- ==== Sys2Proof/Laws/State.lean ====
section
/-! SUPPORT. One lemma per field per update of State, each true by `rfl`, so that no proof unfolds a record update. -/

namespace Sys2Proof.Machine

@[simp] theorem State.setX_cfg (s : State) (i : RegIndex) (v : Byte) : (s.setX i v).cfg = s.cfg := rfl
@[simp] theorem State.setX_x (s : State) (i : RegIndex) (v : Byte) : (s.setX i v).x = s.x.set i.val v i.isLt := rfl
@[simp] theorem State.setX_scratch (s : State) (i : RegIndex) (v : Byte) : (s.setX i v).scratch = s.scratch := rfl
@[simp] theorem State.setX_sa (s : State) (i : RegIndex) (v : Byte) : (s.setX i v).sa = s.sa := rfl
@[simp] theorem State.setX_inited (s : State) (i : RegIndex) (v : Byte) : (s.setX i v).inited = s.inited := rfl
@[simp] theorem State.setX_sterr (s : State) (i : RegIndex) (v : Byte) : (s.setX i v).sterr = s.sterr := rfl
@[simp] theorem State.setX_hung (s : State) (i : RegIndex) (v : Byte) : (s.setX i v).hung = s.hung := rfl
@[simp] theorem State.setX_mem (s : State) (i : RegIndex) (v : Byte) : (s.setX i v).mem = s.mem := rfl
@[simp] theorem State.setX_cp (s : State) (i : RegIndex) (v : Byte) : (s.setX i v).cp = s.cp := rfl
@[simp] theorem State.setX_program (s : State) (i : RegIndex) (v : Byte) : (s.setX i v).program = s.program := rfl
@[simp] theorem State.setX_env (s : State) (i : RegIndex) (v : Byte) : (s.setX i v).env = s.env := rfl
@[simp] theorem State.setX_draws (s : State) (i : RegIndex) (v : Byte) : (s.setX i v).draws = s.draws := rfl
@[simp] theorem State.setX_bus (s : State) (i : RegIndex) (v : Byte) : (s.setX i v).bus = s.bus := rfl
@[simp] theorem State.setX_outcomes (s : State) (i : RegIndex) (v : Byte) : (s.setX i v).outcomes = s.outcomes := rfl
@[simp] theorem State.setX_upcoming (s : State) (i : RegIndex) (v : Byte) (n : Nat) : (s.setX i v).upcoming n = s.upcoming n := rfl

@[simp] theorem State.setControl_cfg (s : State) (c : Byte × Byte) : (s.setControl c).cfg = s.cfg := rfl
@[simp] theorem State.setControl_x (s : State) (c : Byte × Byte) : (s.setControl c).x = (s.x.set 14 c.1).set 15 c.2 := rfl
@[simp] theorem State.setControl_scratch (s : State) (c : Byte × Byte) : (s.setControl c).scratch = s.scratch := rfl
@[simp] theorem State.setControl_sa (s : State) (c : Byte × Byte) : (s.setControl c).sa = s.sa := rfl
@[simp] theorem State.setControl_inited (s : State) (c : Byte × Byte) : (s.setControl c).inited = s.inited := rfl
@[simp] theorem State.setControl_sterr (s : State) (c : Byte × Byte) : (s.setControl c).sterr = s.sterr := rfl
@[simp] theorem State.setControl_hung (s : State) (c : Byte × Byte) : (s.setControl c).hung = s.hung := rfl
@[simp] theorem State.setControl_mem (s : State) (c : Byte × Byte) : (s.setControl c).mem = s.mem := rfl
@[simp] theorem State.setControl_cp (s : State) (c : Byte × Byte) : (s.setControl c).cp = s.cp := rfl
@[simp] theorem State.setControl_program (s : State) (c : Byte × Byte) : (s.setControl c).program = s.program := rfl
@[simp] theorem State.setControl_env (s : State) (c : Byte × Byte) : (s.setControl c).env = s.env := rfl
@[simp] theorem State.setControl_draws (s : State) (c : Byte × Byte) : (s.setControl c).draws = s.draws := rfl
@[simp] theorem State.setControl_bus (s : State) (c : Byte × Byte) : (s.setControl c).bus = s.bus := rfl
@[simp] theorem State.setControl_outcomes (s : State) (c : Byte × Byte) : (s.setControl c).outcomes = s.outcomes := rfl
@[simp] theorem State.setControl_upcoming (s : State) (c : Byte × Byte) (n : Nat) : (s.setControl c).upcoming n = s.upcoming n := rfl

@[simp] theorem State.finish_cfg (s : State) (o : CmdOutcome) : (s.finish o).cfg = s.cfg := rfl
@[simp] theorem State.finish_x (s : State) (o : CmdOutcome) : (s.finish o).x = s.x := rfl
@[simp] theorem State.finish_scratch (s : State) (o : CmdOutcome) : (s.finish o).scratch = s.scratch := rfl
@[simp] theorem State.finish_sa (s : State) (o : CmdOutcome) : (s.finish o).sa = s.sa := rfl
@[simp] theorem State.finish_inited (s : State) (o : CmdOutcome) : (s.finish o).inited = s.inited := rfl
@[simp] theorem State.finish_sterr (s : State) (o : CmdOutcome) : (s.finish o).sterr = s.sterr := rfl
@[simp] theorem State.finish_hung (s : State) (o : CmdOutcome) : (s.finish o).hung = s.hung := rfl
@[simp] theorem State.finish_mem (s : State) (o : CmdOutcome) : (s.finish o).mem = s.mem := rfl
@[simp] theorem State.finish_cp (s : State) (o : CmdOutcome) : (s.finish o).cp = s.cp := rfl
@[simp] theorem State.finish_program (s : State) (o : CmdOutcome) : (s.finish o).program = s.program := rfl
@[simp] theorem State.finish_env (s : State) (o : CmdOutcome) : (s.finish o).env = s.env := rfl
@[simp] theorem State.finish_draws (s : State) (o : CmdOutcome) : (s.finish o).draws = s.draws := rfl
@[simp] theorem State.finish_bus (s : State) (o : CmdOutcome) : (s.finish o).bus = s.bus := rfl
@[simp] theorem State.finish_outcomes (s : State) (o : CmdOutcome) : (s.finish o).outcomes = s.outcomes ++ [o] := rfl
@[simp] theorem State.finish_upcoming (s : State) (o : CmdOutcome) (n : Nat) : (s.finish o).upcoming n = s.upcoming n := rfl
@[simp] theorem State.finish_getX (s : State) (o : CmdOutcome) (j : RegIndex) : (s.finish o).getX j = s.getX j := rfl

@[simp] theorem State.raise_cfg (s : State) (o : CmdOutcome) : (s.raise o).cfg = s.cfg := rfl
@[simp] theorem State.raise_x (s : State) (o : CmdOutcome) : (s.raise o).x = s.x := rfl
@[simp] theorem State.raise_scratch (s : State) (o : CmdOutcome) : (s.raise o).scratch = s.scratch := rfl
@[simp] theorem State.raise_sa (s : State) (o : CmdOutcome) : (s.raise o).sa = s.sa := rfl
@[simp] theorem State.raise_inited (s : State) (o : CmdOutcome) : (s.raise o).inited = s.inited := rfl
@[simp] theorem State.raise_sterr (s : State) (o : CmdOutcome) : (s.raise o).sterr = s.sterr := rfl
@[simp] theorem State.raise_hung (s : State) (o : CmdOutcome) : (s.raise o).hung = s.hung := rfl
@[simp] theorem State.raise_mem (s : State) (o : CmdOutcome) : (s.raise o).mem = s.mem := rfl
@[simp] theorem State.raise_cp (s : State) (o : CmdOutcome) : (s.raise o).cp = s.cp := rfl
@[simp] theorem State.raise_program (s : State) (o : CmdOutcome) : (s.raise o).program = s.program := rfl
@[simp] theorem State.raise_env (s : State) (o : CmdOutcome) : (s.raise o).env = s.env := rfl
@[simp] theorem State.raise_draws (s : State) (o : CmdOutcome) : (s.raise o).draws = s.draws := rfl
@[simp] theorem State.raise_bus (s : State) (o : CmdOutcome) : (s.raise o).bus = s.bus := rfl
@[simp] theorem State.raise_outcomes (s : State) (o : CmdOutcome) : (s.raise o).outcomes = s.outcomes ++ [o] := rfl
@[simp] theorem State.raise_upcoming (s : State) (o : CmdOutcome) (n : Nat) : (s.raise o).upcoming n = s.upcoming n := rfl
@[simp] theorem State.raise_getX (s : State) (o : CmdOutcome) (j : RegIndex) : (s.raise o).getX j = s.getX j := rfl

@[simp] theorem State.hang_cfg (s : State) : (s.hang).cfg = s.cfg := rfl
@[simp] theorem State.hang_x (s : State) : (s.hang).x = s.x := rfl
@[simp] theorem State.hang_scratch (s : State) : (s.hang).scratch = s.scratch := rfl
@[simp] theorem State.hang_sa (s : State) : (s.hang).sa = s.sa := rfl
@[simp] theorem State.hang_inited (s : State) : (s.hang).inited = s.inited := rfl
@[simp] theorem State.hang_sterr (s : State) : (s.hang).sterr = s.sterr := rfl
@[simp] theorem State.hang_hung (s : State) : (s.hang).hung = true := rfl
@[simp] theorem State.hang_mem (s : State) : (s.hang).mem = s.mem := rfl
@[simp] theorem State.hang_cp (s : State) : (s.hang).cp = s.cp := rfl
@[simp] theorem State.hang_program (s : State) : (s.hang).program = s.program := rfl
@[simp] theorem State.hang_env (s : State) : (s.hang).env = s.env := rfl
@[simp] theorem State.hang_draws (s : State) : (s.hang).draws = s.draws := rfl
@[simp] theorem State.hang_bus (s : State) : (s.hang).bus = s.bus := rfl
@[simp] theorem State.hang_outcomes (s : State) : (s.hang).outcomes = s.outcomes := rfl
@[simp] theorem State.hang_upcoming (s : State) (n : Nat) : (s.hang).upcoming n = s.upcoming n := rfl
@[simp] theorem State.hang_getX (s : State) (j : RegIndex) : (s.hang).getX j = s.getX j := rfl

@[simp] theorem State.consume_cfg (s : State) (k : Nat) : (s.consume k).cfg = s.cfg := rfl
@[simp] theorem State.consume_x (s : State) (k : Nat) : (s.consume k).x = s.x := rfl
@[simp] theorem State.consume_scratch (s : State) (k : Nat) : (s.consume k).scratch = s.scratch := rfl
@[simp] theorem State.consume_sa (s : State) (k : Nat) : (s.consume k).sa = s.sa := rfl
@[simp] theorem State.consume_inited (s : State) (k : Nat) : (s.consume k).inited = s.inited := rfl
@[simp] theorem State.consume_sterr (s : State) (k : Nat) : (s.consume k).sterr = s.sterr := rfl
@[simp] theorem State.consume_hung (s : State) (k : Nat) : (s.consume k).hung = s.hung := rfl
@[simp] theorem State.consume_mem (s : State) (k : Nat) : (s.consume k).mem = s.mem := rfl
@[simp] theorem State.consume_cp (s : State) (k : Nat) : (s.consume k).cp = s.cp := rfl
@[simp] theorem State.consume_program (s : State) (k : Nat) : (s.consume k).program = s.program := rfl
@[simp] theorem State.consume_env (s : State) (k : Nat) : (s.consume k).env = s.env.drop k := rfl
@[simp] theorem State.consume_draws (s : State) (k : Nat) : (s.consume k).draws = s.draws + (k - s.env.length) := rfl
@[simp] theorem State.consume_bus (s : State) (k : Nat) : (s.consume k).bus = s.bus := rfl
@[simp] theorem State.consume_outcomes (s : State) (k : Nat) : (s.consume k).outcomes = s.outcomes := rfl
@[simp] theorem State.consume_getX (s : State) (k : Nat) (j : RegIndex) : (s.consume k).getX j = s.getX j := rfl

@[simp] theorem State.issue_cfg (s : State) (kd : TransferKind) (sp : Span) (bs : List Byte) (m : Memory) : (s.issue kd sp bs m).cfg = s.cfg := rfl
@[simp] theorem State.issue_x (s : State) (kd : TransferKind) (sp : Span) (bs : List Byte) (m : Memory) : (s.issue kd sp bs m).x = s.x := rfl
@[simp] theorem State.issue_scratch (s : State) (kd : TransferKind) (sp : Span) (bs : List Byte) (m : Memory) : (s.issue kd sp bs m).scratch = s.scratch := rfl
@[simp] theorem State.issue_sa (s : State) (kd : TransferKind) (sp : Span) (bs : List Byte) (m : Memory) : (s.issue kd sp bs m).sa = s.sa := rfl
@[simp] theorem State.issue_inited (s : State) (kd : TransferKind) (sp : Span) (bs : List Byte) (m : Memory) : (s.issue kd sp bs m).inited = s.inited := rfl
@[simp] theorem State.issue_sterr (s : State) (kd : TransferKind) (sp : Span) (bs : List Byte) (m : Memory) : (s.issue kd sp bs m).sterr = s.sterr := rfl
@[simp] theorem State.issue_hung (s : State) (kd : TransferKind) (sp : Span) (bs : List Byte) (m : Memory) : (s.issue kd sp bs m).hung = s.hung := rfl
@[simp] theorem State.issue_mem (s : State) (kd : TransferKind) (sp : Span) (bs : List Byte) (m : Memory) : (s.issue kd sp bs m).mem = m := rfl
@[simp] theorem State.issue_cp (s : State) (kd : TransferKind) (sp : Span) (bs : List Byte) (m : Memory) : (s.issue kd sp bs m).cp = s.cp := rfl
@[simp] theorem State.issue_program (s : State) (kd : TransferKind) (sp : Span) (bs : List Byte) (m : Memory) : (s.issue kd sp bs m).program = s.program := rfl
@[simp] theorem State.issue_env (s : State) (kd : TransferKind) (sp : Span) (bs : List Byte) (m : Memory) : (s.issue kd sp bs m).env = s.env.drop 1 := rfl
@[simp] theorem State.issue_draws (s : State) (kd : TransferKind) (sp : Span) (bs : List Byte) (m : Memory) : (s.issue kd sp bs m).draws = s.draws + (1 - s.env.length) := rfl
@[simp] theorem State.issue_bus (s : State) (kd : TransferKind) (sp : Span) (bs : List Byte) (m : Memory) : (s.issue kd sp bs m).bus = s.bus ++ [⟨kd, s.sa, sp.wire, sp.count, bs⟩] := rfl
@[simp] theorem State.issue_outcomes (s : State) (kd : TransferKind) (sp : Span) (bs : List Byte) (m : Memory) : (s.issue kd sp bs m).outcomes = s.outcomes := rfl
@[simp] theorem State.issue_getX (s : State) (kd : TransferKind) (sp : Span) (bs : List Byte) (m : Memory) (j : RegIndex) : (s.issue kd sp bs m).getX j = s.getX j := rfl

@[simp] theorem State.beginInit_cfg (s : State) (a : Option SlaveAddr) : (s.beginInit a).cfg = s.cfg := rfl
@[simp] theorem State.beginInit_x (s : State) (a : Option SlaveAddr) : (s.beginInit a).x = s.x := rfl
@[simp] theorem State.beginInit_scratch (s : State) (a : Option SlaveAddr) : (s.beginInit a).scratch = s.scratch := rfl
@[simp] theorem State.beginInit_sa (s : State) (a : Option SlaveAddr) : (s.beginInit a).sa = a.getD s.cfg.slaveDefault := rfl
@[simp] theorem State.beginInit_inited (s : State) (a : Option SlaveAddr) : (s.beginInit a).inited = true := rfl
@[simp] theorem State.beginInit_sterr (s : State) (a : Option SlaveAddr) : (s.beginInit a).sterr = s.sterr := rfl
@[simp] theorem State.beginInit_hung (s : State) (a : Option SlaveAddr) : (s.beginInit a).hung = s.hung := rfl
@[simp] theorem State.beginInit_mem (s : State) (a : Option SlaveAddr) : (s.beginInit a).mem = s.mem := rfl
@[simp] theorem State.beginInit_cp (s : State) (a : Option SlaveAddr) : (s.beginInit a).cp = s.cp := rfl
@[simp] theorem State.beginInit_program (s : State) (a : Option SlaveAddr) : (s.beginInit a).program = s.program := rfl
@[simp] theorem State.beginInit_env (s : State) (a : Option SlaveAddr) : (s.beginInit a).env = s.env := rfl
@[simp] theorem State.beginInit_draws (s : State) (a : Option SlaveAddr) : (s.beginInit a).draws = s.draws := rfl
@[simp] theorem State.beginInit_bus (s : State) (a : Option SlaveAddr) : (s.beginInit a).bus = s.bus := rfl
@[simp] theorem State.beginInit_outcomes (s : State) (a : Option SlaveAddr) : (s.beginInit a).outcomes = s.outcomes := rfl
@[simp] theorem State.beginInit_upcoming (s : State) (a : Option SlaveAddr) (n : Nat) : (s.beginInit a).upcoming n = s.upcoming n := rfl
@[simp] theorem State.beginInit_getX (s : State) (a : Option SlaveAddr) (j : RegIndex) : (s.beginInit a).getX j = s.getX j := rfl

@[simp] theorem State.setSterr_cfg (s : State) (v : Bool) : (s.setSterr v).cfg = s.cfg := rfl
@[simp] theorem State.setSterr_x (s : State) (v : Bool) : (s.setSterr v).x = s.x := rfl
@[simp] theorem State.setSterr_scratch (s : State) (v : Bool) : (s.setSterr v).scratch = s.scratch := rfl
@[simp] theorem State.setSterr_sa (s : State) (v : Bool) : (s.setSterr v).sa = s.sa := rfl
@[simp] theorem State.setSterr_inited (s : State) (v : Bool) : (s.setSterr v).inited = s.inited := rfl
@[simp] theorem State.setSterr_sterr (s : State) (v : Bool) : (s.setSterr v).sterr = v := rfl
@[simp] theorem State.setSterr_hung (s : State) (v : Bool) : (s.setSterr v).hung = s.hung := rfl
@[simp] theorem State.setSterr_mem (s : State) (v : Bool) : (s.setSterr v).mem = s.mem := rfl
@[simp] theorem State.setSterr_cp (s : State) (v : Bool) : (s.setSterr v).cp = s.cp := rfl
@[simp] theorem State.setSterr_program (s : State) (v : Bool) : (s.setSterr v).program = s.program := rfl
@[simp] theorem State.setSterr_env (s : State) (v : Bool) : (s.setSterr v).env = s.env := rfl
@[simp] theorem State.setSterr_draws (s : State) (v : Bool) : (s.setSterr v).draws = s.draws := rfl
@[simp] theorem State.setSterr_bus (s : State) (v : Bool) : (s.setSterr v).bus = s.bus := rfl
@[simp] theorem State.setSterr_outcomes (s : State) (v : Bool) : (s.setSterr v).outcomes = s.outcomes := rfl
@[simp] theorem State.setSterr_upcoming (s : State) (v : Bool) (n : Nat) : (s.setSterr v).upcoming n = s.upcoming n := rfl
@[simp] theorem State.setSterr_getX (s : State) (v : Bool) (j : RegIndex) : (s.setSterr v).getX j = s.getX j := rfl

end Sys2Proof.Machine
end

