-- ==== Sys2Proof/Laws/Ops.lean ====
section
/-! SUPPORT. For each shared operation, what it can do, said once: the environment, the mirror, the two bus transfers and
the gate. -/

namespace Sys2Proof.Machine

/-! ### The environment -/

theorem State.consume_zero (s : State) : s.consume 0 = s := by cases s; simp [State.consume]

theorem State.consume_consume (s : State) (j k : Nat) : (s.consume j).consume k = s.consume (j + k) := by
  simp only [State.consume, List.drop_drop, List.length_drop, State.mk.injEq, true_and, and_true]
  omega

theorem State.upcoming_consume (s : State) (j k : Nat) : (s.consume j).upcoming k = s.upcoming (j + k) := by
  simp only [State.upcoming, State.consume, List.getElem?_drop, List.length_drop]
  rcases h : s.env[j + k]? with _ | e
  · have hl : s.env.length ≤ j + k := by simpa using h
    simp only []
    congr 1
    omega
  · rfl

/-- The event of the transfer after one issued. -/
@[simp] theorem State.issue_upcoming (s : State) (kd : TransferKind) (sp : Span) (bs : List Byte) (m : Memory) (n : Nat) :
    (s.issue kd sp bs m).upcoming n = s.upcoming (n + 1) := by
  have h := State.upcoming_consume s 1 n
  rw [Nat.add_comm] at h
  exact h

/-! ### The mirror -/

theorem State.getX_setX (s : State) (i j : RegIndex) (v : Byte) :
    (s.setX i v).getX j = if j = i then v else s.getX j := by
  simp only [State.getX, State.setX, Vector.get_eq_getElem, Vector.getElem_set]
  by_cases h : j = i
  · simp [h]
  · have : ¬ i.val = j.val := fun e => h (Fin.ext e.symm)
    simp [h, this]

@[simp] theorem State.getX_setX_same (s : State) (i : RegIndex) (v : Byte) : (s.setX i v).getX i = v := by
  simp [State.getX_setX]

theorem State.getX_setX_ne (s : State) {i j : RegIndex} (h : j ≠ i) (v : Byte) : (s.setX i v).getX j = s.getX j := by
  simp [State.getX_setX, h]

@[simp] theorem State.setXs_nil (s : State) (bs : List Byte) : s.setXs [] bs = s := by cases bs <;> rfl

@[simp] theorem State.setXs_nil_bytes (s : State) (is : List RegIndex) : s.setXs is [] = s := by cases is <;> rfl

@[simp] theorem State.setXs_cons (s : State) (i : RegIndex) (b : Byte) (is : List RegIndex) (bs : List Byte) :
    s.setXs (i :: is) (b :: bs) = (s.setX i b).setXs is bs := rfl

/-- A load changes the mirror and nothing else. -/
theorem State.setXs_eq (s : State) (is : List RegIndex) (bs : List Byte) :
    s.setXs is bs = { s with x := (s.setXs is bs).x } := by
  induction is generalizing s bs with
  | nil => simp
  | cons i is ih =>
    cases bs with
    | nil => simp
    | cons b bs => rw [State.setXs_cons, ih]; rfl

/-- A load leaves every mirror byte outside its span. -/
theorem State.getX_setXs_of_not_mem (s : State) {is : List RegIndex} {j : RegIndex} (h : j ∉ is) (bs : List Byte) :
    (s.setXs is bs).getX j = s.getX j := by
  induction is generalizing s bs with
  | nil => simp
  | cons i is ih =>
    cases bs with
    | nil => simp
    | cons b bs =>
      rw [State.setXs_cons, ih _ fun hm => h (by simp [hm])]
      exact State.getX_setX_ne s (fun e => h (by simp [e])) b

/-! ### The two bus transfers -/

theorem State.memRead_done (s : State) (sp : Span) (k : State → State) (h : (s.upcoming 0).answer = .done) :
    s.memRead sp k = k ((s.issue .read sp (s.readBytes sp) (s.passed sp)).setXs sp.indices (s.readBytes sp)) := by
  simp only [State.memRead, h]

theorem State.memRead_failed (s : State) (sp : Span) (k : State → State) {n : Nat}
    (h : (s.upcoming 0).answer = .failed n) : s.memRead sp k = (s.issue .read sp [] s.found).raise .errBus := by
  simp only [State.memRead, h]

theorem State.memRead_never (s : State) (sp : Span) (k : State → State) {n : Nat}
    (h : (s.upcoming 0).answer = .never n) : s.memRead sp k = (s.issue .read sp [] s.found).hang := by
  simp only [State.memRead, h]

theorem State.memWrite_done (s : State) (sp : Span) (k : State → State) (h : (s.upcoming 0).answer = .done) :
    s.memWrite sp k = k (s.issue .write sp (s.getXs sp.indices) (s.delivered sp (s.getXs sp.indices))) := by
  simp only [State.memWrite, h]

theorem State.memWrite_failed (s : State) (sp : Span) (k : State → State) {n : Nat}
    (h : (s.upcoming 0).answer = .failed n) :
    s.memWrite sp k =
      (s.issue .write sp (s.getXs sp.indices) (s.delivered sp ((s.getXs sp.indices).take n))).raise .errBus := by
  simp only [State.memWrite, h]

theorem State.memWrite_never (s : State) (sp : Span) (k : State → State) {n : Nat}
    (h : (s.upcoming 0).answer = .never n) :
    s.memWrite sp k =
      (s.issue .write sp (s.getXs sp.indices) (s.delivered sp ((s.getXs sp.indices).take n))).hang := by
  simp only [State.memWrite, h]

/-- A transfer's three ways: the rest of the command runs on the state it leaves, or the command ends there with ERR_BUS,
or it never ends. -/
theorem State.memRead_cases (s : State) (sp : Span) (k : State → State) :
    ((s.upcoming 0).answer = .done ∧ s.memRead sp k =
      k ((s.issue .read sp (s.readBytes sp) (s.passed sp)).setXs sp.indices (s.readBytes sp))) ∨
    (∃ n, (s.upcoming 0).answer = .failed n ∧ s.memRead sp k = (s.issue .read sp [] s.found).raise .errBus) ∨
    (∃ n, (s.upcoming 0).answer = .never n ∧ s.memRead sp k = (s.issue .read sp [] s.found).hang) := by
  rcases h : (s.upcoming 0).answer with _ | n | n
  · exact .inl ⟨rfl, s.memRead_done sp k h⟩
  · exact .inr (.inl ⟨n, rfl, s.memRead_failed sp k h⟩)
  · exact .inr (.inr ⟨n, rfl, s.memRead_never sp k h⟩)

/-- The same for a write; a failing or hanging write has delivered a prefix of its bytes. -/
theorem State.memWrite_cases (s : State) (sp : Span) (k : State → State) :
    ((s.upcoming 0).answer = .done ∧
      s.memWrite sp k = k (s.issue .write sp (s.getXs sp.indices) (s.delivered sp (s.getXs sp.indices)))) ∨
    (∃ n, (s.upcoming 0).answer = .failed n ∧ s.memWrite sp k =
      (s.issue .write sp (s.getXs sp.indices) (s.delivered sp ((s.getXs sp.indices).take n))).raise .errBus) ∨
    (∃ n, (s.upcoming 0).answer = .never n ∧ s.memWrite sp k =
      (s.issue .write sp (s.getXs sp.indices) (s.delivered sp ((s.getXs sp.indices).take n))).hang) := by
  rcases h : (s.upcoming 0).answer with _ | n | n
  · exact .inl ⟨rfl, s.memWrite_done sp k h⟩
  · exact .inr (.inl ⟨n, rfl, s.memWrite_failed sp k h⟩)
  · exact .inr (.inr ⟨n, rfl, s.memWrite_never sp k h⟩)

/-- The Control block as a read returns it, and the device registers after the read. -/
theorem State.readBytes_control (s : State) :
    s.readBytes .control = [s.found.read 14, (s.found.during (s.upcoming 0) 1).read 15] := by
  simp only [State.readBytes, Span.indices, gapsOf, Memory.during]
  rcases (s.upcoming 0).within with _ | ⟨a, w⟩ <;> simp

theorem State.passed_control (s : State) : s.passed .control = s.found.during (s.upcoming 0) 1 := rfl

/-- The datetime registers as a read returns them, and the device registers after the read. -/
theorem State.readBytes_datetime (s : State) :
    s.readBytes .datetime =
      ([0, 1, 2, 3, 4, 5, 6] : List RegIndex).map fun k => (s.found.during (s.upcoming 0) k.val).read k := by
  simp only [State.readBytes, Span.indices, gapsOf, Memory.during]
  rcases (s.upcoming 0).within with _ | ⟨_, _ | ⟨_, _ | ⟨_, _ | ⟨_, _ | ⟨_, _ | ⟨_, _⟩⟩⟩⟩⟩⟩ <;>
    simp [Memory.drift_append]

theorem State.passed_datetime (s : State) : s.passed .datetime = s.found.during (s.upcoming 0) 6 := rfl

/-- What a transfer finds, passes and delivers keeps the canonical form. -/
theorem State.wf_found {s : State} (h : s.mem.wf = true) : s.found.wf = true := Memory.wf_drift h _

theorem State.wf_passed {s : State} (h : s.mem.wf = true) (sp : Span) : (s.passed sp).wf = true :=
  Memory.wf_drift (State.wf_found h) _

theorem State.wf_delivered {s : State} (h : s.mem.wf = true) (sp : Span) (bs : List Byte) :
    (s.delivered sp bs).wf = true := Memory.wf_writeAll (State.wf_found h) _ _ _

/-- What a transfer finds is as before where the environment changes nothing. -/
theorem State.read_found {s : State} {a : RegIndex} (h : ∀ p ∈ (s.upcoming 0).changes, p.1 ≠ a) :
    s.found.read a = s.mem.read a :=
  Memory.read_drift_of_ne _ fun p hp => h p (List.mem_append_left _ hp)

/-- The changes before each byte of a transfer are among the environment's changes. -/
theorem gapsOf_changes {e : EnvEvent} {g : Updates} (hg : g ∈ gapsOf e) : ∀ p ∈ g, p ∈ e.changes := by
  intro p hp
  rcases List.mem_cons.mp hg with rfl | hg
  · simp at hp
  · exact List.mem_append_right _ (List.mem_flatten_of_mem hg hp)

theorem State.read_passed {s : State} {a : RegIndex} (h : ∀ p ∈ (s.upcoming 0).changes, p.1 ≠ a) (sp : Span) :
    (s.passed sp).read a = s.mem.read a := by
  rw [State.passed, Memory.read_drift_of_ne _ ?_, State.read_found h]
  intro p hp
  obtain ⟨g, hg, hp⟩ := List.mem_flatten.mp hp
  exact h p (gapsOf_changes (List.mem_of_mem_take hg) p hp)

/-- A write leaves every register outside its span that the environment leaves. -/
theorem State.read_delivered {s : State} {a : RegIndex} (h : ∀ p ∈ (s.upcoming 0).changes, p.1 ≠ a) {sp : Span}
    (hsp : a ∉ sp.indices) (bs : List Byte) : (s.delivered sp bs).read a = s.mem.read a := by
  rw [State.delivered, Memory.read_writeAll_of_not_mem _ hsp _ fun g hg p hp => h p (gapsOf_changes hg p hp),
    State.read_found h]

/-! ### The gate -/

theorem State.whenInited_true {s : State} (h : s.inited = true) (k : State → State) : s.whenInited k = k s := by
  simp [State.whenInited, h]

theorem State.whenInited_false {s : State} (h : s.inited = false) (k : State → State) :
    s.whenInited k = s.raise .errOp := by simp [State.whenInited, h]

/-! ### A property that every way of ending a command has -/

/-- To show `P` of the end of a read: show it of the rest of the command after the load, and of the two early ends. -/
theorem State.memRead_ind {P : State → Prop} {s : State} {sp : Span} {k : State → State}
    (hdone : (s.upcoming 0).answer = .done →
      P (k ((s.issue .read sp (s.readBytes sp) (s.passed sp)).setXs sp.indices (s.readBytes sp))))
    (hfail : ∀ n, (s.upcoming 0).answer = .failed n → P ((s.issue .read sp [] s.found).raise .errBus))
    (hnever : ∀ n, (s.upcoming 0).answer = .never n → P (s.issue .read sp [] s.found).hang) :
    P (s.memRead sp k) := by
  rcases s.memRead_cases sp k with ⟨h, e⟩ | ⟨n, h, e⟩ | ⟨n, h, e⟩ <;> rw [e]
  · exact hdone h
  · exact hfail n h
  · exact hnever n h

/-- To show `P` of the end of a write: show it of the rest of the command after it, and of the two early ends. -/
theorem State.memWrite_ind {P : State → Prop} {s : State} {sp : Span} {k : State → State}
    (hdone : (s.upcoming 0).answer = .done →
      P (k (s.issue .write sp (s.getXs sp.indices) (s.delivered sp (s.getXs sp.indices)))))
    (hfail : ∀ n, (s.upcoming 0).answer = .failed n → P ((s.issue .write sp (s.getXs sp.indices)
      (s.delivered sp ((s.getXs sp.indices).take n))).raise .errBus))
    (hnever : ∀ n, (s.upcoming 0).answer = .never n → P (s.issue .write sp (s.getXs sp.indices)
      (s.delivered sp ((s.getXs sp.indices).take n))).hang) :
    P (s.memWrite sp k) := by
  rcases s.memWrite_cases sp k with ⟨h, e⟩ | ⟨n, h, e⟩ | ⟨n, h, e⟩ <;> rw [e]
  · exact hdone h
  · exact hfail n h
  · exact hnever n h

end Sys2Proof.Machine
end

