-- ==== Sys2Proof/Laws/PerInstr.lean ====
section
/-! SUPPORT. A family of statements about every command as syntax, one lemma per constructor. -/

namespace Sys2Proof.Laws.OpPort

/-- The reserved operation-select codes (30_encoding.md R64). -/
def reserved : List (BitVec 5) :=
  [0x06, 0x07, 0x0E, 0x0F, 0x13, 0x17, 0x18, 0x19, 0x1A, 0x1B, 0x1C, 0x1D, 0x1E, 0x1F]

/-- The encoder drives `op[4:0]` with the code of the command's row, and the code is none of the reserved ones
(30_encoding.md R62, R64). -/
def Statement (i : Instr) : Prop :=
  (encode i).op = i.opcode ∧ i.opcode ∉ reserved

/-- Each command has one code. -/
theorem of_code {i : Instr} {c : BitVec 5} (h : (encode i).op = i.opcode ∧ i.opcode = c) (hc : c ∉ reserved) :
    Statement i := ⟨h.1, h.2 ▸ hc⟩

theorem bcd2dec (b : Byte) : Statement (.bcd2dec b) := of_code (c := 0x00) ⟨rfl, rfl⟩ (by decide)
theorem dec2bcd (d : Int) : Statement (.dec2bcd d) := of_code (c := 0x01) ⟨rfl, rfl⟩ (by decide)
theorem wday (date month year4 : Int) : Statement (.wday date month year4) := of_code (c := 0x02) ⟨rfl, rfl⟩ (by decide)
theorem ofsdec (b : Byte) : Statement (.ofsdec b) := of_code (c := 0x03) ⟨rfl, rfl⟩ (by decide)
theorem ofsenc (v : Int) : Statement (.ofsenc v) := of_code (c := 0x04) ⟨rfl, rfl⟩ (by decide)
theorem regaddr (idx : BitVec 4) : Statement (.regaddr idx) := of_code (c := 0x05) ⟨rfl, rfl⟩ (by decide)
theorem init (addr : Option SlaveAddr) : Statement (.init addr) := of_code (c := 0x08) ⟨rfl, rfl⟩ (by decide)
theorem rddt : Statement .rddt := of_code (c := 0x09) ⟨rfl, rfl⟩ (by decide)
theorem wrdt (seconds minutes hours date month year weekday : Option Int) :
    Statement (.wrdt seconds minutes hours date month year weekday) :=
    of_code (c := 0x0A) ⟨rfl, rfl⟩ (by decide)
theorem ofsget : Statement .ofsget := of_code (c := 0x0B) ⟨rfl, rfl⟩ (by decide)
theorem ofsset (v : Int) : Statement (.ofsset v) := of_code (c := 0x0C) ⟨rfl, rfl⟩ (by decide)
theorem ctmode (mode : Option ModeCode) : Statement (.ctmode mode) := of_code (c := 0x0D) ⟨rfl, rfl⟩ (by decide)
theorem dalmset (hours minutes : Option Int) : Statement (.dalmset hours minutes) := of_code (c := 0x10) ⟨rfl, rfl⟩ (by decide)
theorem dalmclr : Statement .dalmclr := of_code (c := 0x11) ⟨rfl, rfl⟩ (by decide)
theorem dalmrst : Statement .dalmrst := of_code (c := 0x12) ⟨rfl, rfl⟩ (by decide)
theorem walmset (hours minutes : Option Int) (wdmask : BitVec 7) : Statement (.walmset hours minutes wdmask) :=
    of_code (c := 0x14) ⟨rfl, rfl⟩ (by decide)
theorem walmclr : Statement .walmclr := of_code (c := 0x15) ⟨rfl, rfl⟩ (by decide)
theorem walmrst : Statement .walmrst := of_code (c := 0x16) ⟨rfl, rfl⟩ (by decide)

end Sys2Proof.Laws.OpPort
end

