-- ==== Sys2Proof/Tests/Slice0.lean ====
section
/-! SUPPORT. Tests: well-formedness, decoding, one-step tests with results from 95_test_vectors.md, and a witness for
the hypotheses of every statement that has some. -/

open Sys2Proof Sys2Proof.Machine

namespace Sys2Proof.Tests

/-! ### Helpers -/

/-- The device registers 14 and 15 hold `c1` and `c2`, all others 0. -/
def control (c1 c2 : Byte) : Memory := (Memory.write [] 14 c1).write 15 c2

/-- After reset, with device `m` and the environment's events `evs`. -/
def fresh (m : Memory) (evs : List EnvEvent) : State := { State.reset with mem := m, env := evs }

/-- The same after an INIT at the default address. -/
def ready (m : Memory) (evs : List EnvEvent) : State := { fresh m evs with inited := true, sa := 0x32 }

/-- `n` events of the static test-bench device. -/
def static (n : Nat) : List EnvEvent := List.replicate n EnvEvent.static

/-- `n` answered transfers, then one that fails after `d` bytes. -/
def failing (n d : Nat) : List EnvEvent := static n ++ [{ drift := [], within := [], answer := .failed d }]

/-- A transfer that never returns. -/
def hanging : List EnvEvent := [{ drift := [], within := [], answer := .never 0 }]

/-- The environment changes register 13 before an answered transfer and again between its first two bytes. -/
def drifting : EnvEvent := { drift := [(13, 0xAA)], within := [[(13, 0xBB)]], answer := .done }

/-- What an observer of one command sees: the outcomes and the transfers (kind, wire address, bytes). -/
structure Observed where
  outcomes : List CmdOutcome
  transfers : List (TransferKind × Byte × List Byte)
  deriving DecidableEq, Repr

/-- What an observer of the command `i` at `s` sees, when it answers a next state. -/
def observe (i : Instr) (s : State) : Option Observed :=
  match exec i s with
  | .next t => some ⟨t.outcomes, t.bus.map fun r => (r.kind, r.wire, r.bytes)⟩
  | .fault _ => none
  | .refused _ => none

/-- A property of the state a command ends in. -/
def ends (i : Instr) (s : State) (p : State → Bool) : Bool :=
  match exec i s with
  | .next t => p t
  | .fault _ => false
  | .refused _ => false

/-! ### Well-formedness: an ill-formed term for each check -/

theorem test_fits_port_bounds :
    fitsPort Cfg.default (2 ^ 31 - 1) = true ∧ fitsPort Cfg.default (2 ^ 31) = false ∧
      fitsPort Cfg.default (-2 ^ 31) = true ∧ fitsPort Cfg.default (-2 ^ 31 - 1) = false := by decide

theorem test_ill_formed_ports :
    (Instr.dec2bcd (2 ^ 31)).fitsPorts Cfg.default = false ∧ (Instr.wday (2 ^ 31) 1 1).fitsPorts Cfg.default = false ∧
      (Instr.wday 1 (2 ^ 31) 1).fitsPorts Cfg.default = false ∧
      (Instr.wday 1 1 (2 ^ 31)).fitsPorts Cfg.default = false ∧
      (Instr.ofsenc (2 ^ 31)).fitsPorts Cfg.default = false ∧ (Instr.ofsset (2 ^ 31)).fitsPorts Cfg.default = false ∧
      (Instr.dalmset (some (2 ^ 31)) none).fitsPorts Cfg.default = false ∧
      (Instr.dalmset none (some (2 ^ 31))).fitsPorts Cfg.default = false ∧
      (Instr.walmset (some (2 ^ 31)) none 0).fitsPorts Cfg.default = false ∧
      (Instr.walmset none (some (2 ^ 31)) 0).fitsPorts Cfg.default = false := by decide

theorem test_ill_formed_wrdt_ports :
    (Instr.wrdt (some (2 ^ 31)) none none none none none none).fitsPorts Cfg.default = false ∧
      (Instr.wrdt none (some (2 ^ 31)) none none none none none).fitsPorts Cfg.default = false ∧
      (Instr.wrdt none none (some (2 ^ 31)) none none none none).fitsPorts Cfg.default = false ∧
      (Instr.wrdt none none none (some (2 ^ 31)) none none none).fitsPorts Cfg.default = false ∧
      (Instr.wrdt none none none none (some (2 ^ 31)) none none).fitsPorts Cfg.default = false ∧
      (Instr.wrdt none none none none none (some (2 ^ 31)) none).fitsPorts Cfg.default = false ∧
      (Instr.wrdt none none none none none none (some (2 ^ 31))).fitsPorts Cfg.default = false := by decide

theorem test_ill_formed_domains :
    (Instr.dec2bcd 100).inDomain = false ∧ (Instr.dec2bcd (-1)).inDomain = false ∧
      (Instr.wday 0 1 2000).inDomain = false ∧ (Instr.wday 32 1 2000).inDomain = false ∧
      (Instr.wday 1 0 2000).inDomain = false ∧ (Instr.wday 1 13 2024).inDomain = false ∧
      (Instr.wday 1 1 0).inDomain = false := by decide

theorem test_ill_formed_config :
    Cfg.wf { Cfg.default with mWale := 0xC0 } = false ∧ Cfg.wf { Cfg.default with mWafg := 0x01 } = false ∧
      Cfg.wf { Cfg.default with ctMask := 0x03 } = false ∧ Cfg.wf { Cfg.default with ct2Hz := 3 } = false ∧
      Cfg.wf { Cfg.default with ctSec := 0 } = false ∧ Cfg.wf { Cfg.default with argBits := 7 } = false := by decide

/-! ### Decoding: port values written out from 30_encoding.md R61, R62, and the rows of the opcode table -/

theorem test_decode_codec :
    decode { CommandPort.blank 0b00000 with b := 0x45 } = .ok (.bcd2dec 0x45) ∧
      decode { CommandPort.blank 0b00001 with d := 45 } = .ok (.dec2bcd 45) ∧
      decode { CommandPort.blank 0b00010 with date := ⟨true, 15⟩, month := ⟨true, 6⟩, year4 := 2024 } =
        .ok (.wday 15 6 2024) ∧
      decode { CommandPort.blank 0b00011 with b := 0x76 } = .ok (.ofsdec 0x76) ∧
      decode { CommandPort.blank 0b00100 with v := -10 } = .ok (.ofsenc (-10)) ∧
      decode { CommandPort.blank 0b00101 with idx := 0xF } = .ok (.regaddr 0xF) := by decide

theorem test_decode_composer :
    decode (CommandPort.blank 0b01000) = .ok (.init none) ∧
      decode { CommandPort.blank 0b01000 with addr := ⟨true, 0x51⟩ } = .ok (.init (some 0x51)) ∧
      decode { CommandPort.blank 0b01101 with mode := ⟨true, 3⟩ } = .ok (.ctmode (some 3)) ∧
      decode { CommandPort.blank 0b01101 with mode := ⟨false, 3⟩ } = .ok (.ctmode none) := by decide

theorem test_decode_datetime_and_offset :
    decode (CommandPort.blank 0b01001) = .ok .rddt ∧
      decode { CommandPort.blank 0b01010 with seconds := ⟨true, 30⟩, minutes := ⟨true, 45⟩, hours := ⟨true, 13⟩,
                                              date := ⟨true, 15⟩, month := ⟨true, 6⟩, year := ⟨true, 24⟩ } =
        .ok (.wrdt (some 30) (some 45) (some 13) (some 15) (some 6) (some 24) none) ∧
      decode { CommandPort.blank 0b01010 with weekday := ⟨true, 3⟩ } =
        .ok (.wrdt none none none none none none (some 3)) ∧
      decode (CommandPort.blank 0b01011) = .ok .ofsget ∧
      decode { CommandPort.blank 0b01100 with v := 5 } = .ok (.ofsset 5) := by decide

theorem test_decode_alarms :
    decode { CommandPort.blank 0b10000 with hours := ⟨true, 6⟩, minutes := ⟨true, 30⟩ } =
        .ok (.dalmset (some 6) (some 30)) ∧
      decode (CommandPort.blank 0b10001) = .ok .dalmclr ∧ decode (CommandPort.blank 0b10010) = .ok .dalmrst ∧
      decode { CommandPort.blank 0b10100 with hours := ⟨true, 8⟩, minutes := ⟨true, 0⟩, wdmask := 0x06 } =
        .ok (.walmset (some 8) (some 0) 0x06) ∧
      decode (CommandPort.blank 0b10101) = .ok .walmclr ∧ decode (CommandPort.blank 0b10110) = .ok .walmrst := by
  decide

theorem test_decode_reserved :
    decode (CommandPort.blank 0x06) = .error (.reservedOp 0x06) ∧
      decode (CommandPort.blank 0x13) = .error (.reservedOp 0x13) ∧
      decode (CommandPort.blank 0x1F) = .error (.reservedOp 0x1F) := by decide

theorem test_table_words :
    decodeTableWord 8 0x08 = some (.init none) ∧ decodeTableWord 8 0x09 = some .rddt ∧
      decodeTableWord 8 0x16 = some .walmrst ∧ decodeTableWord 8 0x17 = none := by decide

theorem test_table_word_runs : ∃ t, step (State.reset.withFetchWord 8 0x05) = .next t ∧ t.cp = 1 ∧
    t.outcomes = [.ok (.byte 0x00)] := ⟨_, rfl, by decide⟩

/-! ### The device register space -/

theorem test_reset_memory_wf : State.reset.mem.wf = true := Memory.wf_nil

theorem test_write_of_unlisted_value_removes : (Memory.write (control 0x24 0x0F) 14 0x00) = [(15, 0x0F)] := by decide

/-! ### One step of each command (95_test_vectors.md) -/

/-- Vectors V1. -/
theorem test_bcd2dec :
    observe (.bcd2dec 0x45) State.reset = some ⟨[.ok (.int 45)], []⟩ ∧
      observe (.bcd2dec 0xA5) State.reset = some ⟨[.ok (.int 105)], []⟩ := by decide

/-- Vectors V1. -/
theorem test_dec2bcd :
    observe (.dec2bcd 99) State.reset = some ⟨[.ok (.byte 0x99)], []⟩ ∧ observe (.dec2bcd 100) State.reset = none := by
  decide

/-- Vectors V1: a January, a century leap day. -/
theorem test_wday :
    observe (.wday 1 1 2000) State.reset = some ⟨[.ok (.int 6)], []⟩ ∧
      observe (.wday 29 2 2000) State.reset = some ⟨[.ok (.int 2)], []⟩ := by decide

/-- Vectors V1: bit 7 discarded, the smallest value. -/
theorem test_ofsdec :
    observe (.ofsdec 0xC1) State.reset = some ⟨[.ok (.int (-63))], []⟩ ∧
      observe (.ofsdec 0x40) State.reset = some ⟨[.ok (.int (-64))], []⟩ := by decide

/-- Vectors V1. -/
theorem test_ofsenc :
    observe (.ofsenc (-62)) State.reset = some ⟨[.ok (.byte 0x42)], []⟩ ∧
      observe (.ofsenc 64) State.reset = some ⟨[.rejValue], []⟩ := by decide

/-- Vectors V1. -/
theorem test_regaddr : observe (.regaddr 0xB) State.reset = some ⟨[.ok (.byte 0xB0)], []⟩ := by decide

/-- Vectors V4: a clean status. -/
theorem test_init_clean :
    observe (.init none) (fresh (control 0x24 0x8F) (static 3)) = some ⟨[.ok .empty], [(.read, 0xF0, [0x8F])]⟩ := by
  decide

/-- Vectors V4 and program P1: a power anomaly. -/
theorem test_init_anomaly :
    observe (.init none) (fresh (control 0xC7 0x5F) (static 3)) =
      some ⟨[.warnStatus], [(.read, 0xF0, [0x5F]), (.write, 0xE0, [0x00]), (.write, 0xF0, [0x00])]⟩ := by decide

/-- Vectors V2: every byte full, and the mask on each. -/
theorem test_rddt :
    observe .rddt (ready (Memory.writeAll [] [0, 1, 2, 3, 4, 5, 6] [0x7F, 0xFF, 0xBF, 0xFF, 0xFF, 0xFF, 0xFF] [])
        (static 1)) =
      some ⟨[.ok (.dateTime { year := 165, month := 25, date := 45, weekday := 7, hours := 45, minutes := 85,
                              seconds := 85 })],
        [(.read, 0x00, [0x7F, 0xFF, 0xBF, 0xFF, 0xFF, 0xFF, 0xFF])]⟩ := by decide

/-- Vectors V2: a computed weekday, VDET alone cleared. -/
theorem test_wrdt :
    observe (.wrdt (some 0) (some 0) (some 0) (some 29) (some 2) (some 24) none) (ready (control 0 0x4F) (static 3)) =
      some ⟨[.ok .empty], [(.write, 0x00, [0x00, 0x00, 0x80, 0x04, 0x29, 0x02, 0x24]), (.read, 0xF0, [0x4F]),
        (.write, 0xF0, [0x0F])]⟩ := by decide

/-- Vectors V2: the order of the checks; the weekday's field code. -/
theorem test_wrdt_errors :
    observe (.wrdt (some 60) (some 60) (some 24) (some 0) (some 0) (some 100) none) (ready [] (static 3)) =
        some ⟨[.errArg .seconds], []⟩ ∧
      observe (.wrdt (some 0) (some 0) (some 0) (some 1) (some 1) (some 0) (some 7)) (ready [] (static 3)) =
        some ⟨[.errArg .weekday], []⟩ := by decide

/-- Vectors V3. -/
theorem test_ofsget :
    observe .ofsget (ready (Memory.write [] 7 0xC1) (static 1)) =
      some ⟨[.ok (.int (-63))], [(.read, 0x70, [0xC1])]⟩ := by decide

/-- Vectors V3. -/
theorem test_ofsset :
    observe (.ofsset (-62)) (ready [] (static 1)) = some ⟨[.ok .empty], [(.write, 0x70, [0x42])]⟩ ∧
      observe (.ofsset (-63)) (ready [] (static 1)) = some ⟨[.rejValue], []⟩ := by decide

/-- Vectors V4. -/
theorem test_ctmode :
    observe (.ctmode (some 3)) (ready (control 0xC4 0) (static 2)) =
        some ⟨[.ok .empty], [(.read, 0xE0, [0xC4]), (.write, 0xE0, [0xC3])]⟩ ∧
      observe (.ctmode (some 4)) (ready (control 0xC4 0) (static 2)) =
        some ⟨[.ok .empty], [(.read, 0xE0, [0xC4]), (.write, 0xE0, [0xC0])]⟩ := by decide

/-- Vectors V5. -/
theorem test_dalmset :
    observe (.dalmset (some 6) (some 30)) (ready [] (static 3)) =
      some ⟨[.ok .empty], [(.read, 0xE0, [0x00, 0x00]), (.write, 0xE0, [0x40, 0x00]), (.write, 0xB0, [0x30, 0x06])]⟩ := by
  decide

/-- Vectors V5: the read comes before the check, minutes before hours. -/
theorem test_dalmset_error :
    observe (.dalmset (some 24) (some 60)) (ready (control 0xD3 0x08) (static 3)) =
      some ⟨[.errArg .minutes], [(.read, 0xE0, [0xD3, 0x08])]⟩ := by decide

/-- Vectors V5. -/
theorem test_dalmclr :
    observe .dalmclr (ready (control 0xFF 0xFF) (static 3)) =
      some ⟨[.ok .empty], [(.read, 0xE0, [0xFF, 0xFF]), (.write, 0xE0, [0xBF, 0xFE]), (.write, 0xB0, [0x00, 0x00])]⟩ := by
  decide

/-- Vectors V5. -/
theorem test_dalmrst :
    observe .dalmrst (ready (control 0x00 0xFF) (static 3)) =
      some ⟨[.ok .empty], [(.read, 0xE0, [0x00, 0xFF]), (.write, 0xE0, [0x40, 0xFE])]⟩ := by decide

/-- Vectors V5. -/
theorem test_walmset :
    observe (.walmset (some 23) (some 59) 0x7F) (ready (control 0x53 0x0A) (static 3)) =
      some ⟨[.ok .empty], [(.read, 0xE0, [0x53, 0x0A]), (.write, 0xE0, [0xD3, 0x08]),
        (.write, 0x80, [0x59, 0x23, 0x7F])]⟩ := by decide

/-- Program P4: a zero mask sends the mirror's `x[10]`, over what another agent had set. -/
theorem test_walmset_no_mask :
    observe (.walmset (some 8) (some 0) 0) (ready (Memory.write [] 10 0x3E) (static 3)) =
      some ⟨[.ok .empty], [(.read, 0xE0, [0x00, 0x00]), (.write, 0xE0, [0x80, 0x00]),
        (.write, 0x80, [0x00, 0x08, 0x00])]⟩ := by decide

/-- Vectors V5. -/
theorem test_walmclr :
    observe .walmclr { ready (control 0xFF 0xFF) (static 3) with x := (Vector.replicate 16 0).set 10 0x41 } =
      some ⟨[.ok .empty], [(.read, 0xE0, [0xFF, 0xFF]), (.write, 0xE0, [0x7F, 0xFD]),
        (.write, 0x80, [0x00, 0x00, 0x41])]⟩ := by decide

/-- Vectors V5. -/
theorem test_walmrst :
    observe .walmrst (ready (control 0x00 0xFF) (static 3)) =
      some ⟨[.ok .empty], [(.read, 0xE0, [0x00, 0xFF]), (.write, 0xE0, [0x80, 0xFD])]⟩ := by decide

/-- 20_memory.md R39: seconds are read before the device's own update, minutes after it. -/
theorem test_update_within_a_read :
    observe .rddt (ready [] [{ drift := [(0, 0x59), (1, 0x30)], within := [[(0, 0x00), (1, 0x31)]], answer := .done }]) =
      some ⟨[.ok (.dateTime { year := 0, month := 0, date := 0, weekday := 0, hours := 0, minutes := 31, seconds := 59 })],
        [(.read, 0x00, [0x59, 0x31, 0x00, 0x00, 0x00, 0x00, 0x00])]⟩ := by decide

/-- 20_memory.md R39: the device changes Control1 after it was delivered and Control2 before it is; a transfer that fails
after one byte has no update after it. -/
theorem test_update_within_a_write :
    let e := fun a : Answer => { drift := [], within := [[(14, 0x11), (15, 0x22)]], answer := a }
    ends .dalmrst (ready (control 0 0x0F) [EnvEvent.static, e .done])
        (fun t => t.mem.read 14 == 0x11 && t.mem.read 15 == 0x0E) = true ∧
      ends .dalmrst (ready (control 0 0x0F) [EnvEvent.static, e (.failed 1)])
        (fun t => t.mem.read 14 == 0x40 && t.mem.read 15 == 0x0F) = true := by decide

/-! ### Witnesses: the hypotheses of each statement, met together, at boundary values -/

/-- The host presents the command `p`. -/
def presenting (p : CommandPort) (s : State) : State := { s with program := [p] }

/-- Two bundles that differ only in ports BCD2DEC does not read. -/
theorem witness_DecodeReadsOnlyTheCommandsPorts :
    let p := { CommandPort.blank 0x00 with b := 0x45 }
    let q := { CommandPort.blank 0x00 with b := 0x45, d := 7 }
    decode p = .ok (.bcd2dec 0x45) ∧ q.op = p.op ∧ (Instr.bcd2dec 0x45).samePorts p q ∧ p ≠ q :=
  ⟨by decide, by decide, rfl, by decide⟩

theorem witness_ReservedCodesEndWithErrOp :
    let s := presenting (CommandPort.blank 0x06) State.reset
    s.hung = false ∧ s.fetch = some (CommandPort.blank 0x06) ∧
      decode (CommandPort.blank 0x06) = .error (.reservedOp 0x06) ∧
      decode (CommandPort.blank 0x1F) = .error (.reservedOp 0x1F) ∧ decode (CommandPort.blank 0x16) = .ok .walmrst := by
  decide

theorem witness_StepRunsTheDecodedCommand :
    let s := presenting (encode .rddt) (ready [] (static 1))
    s.hung = false ∧ s.fetch = some (encode .rddt) ∧ decode (encode .rddt) = .ok .rddt ∧
      ends .rddt s (fun t => !t.hung) = true := by decide

theorem witness_StepRunsTheDecodedCommand_hung :
    let s := presenting (encode .rddt) (ready [] hanging)
    s.hung = false ∧ s.fetch = some (encode .rddt) ∧ decode (encode .rddt) = .ok .rddt ∧
      ends .rddt s (fun t => t.hung) = true := by decide

theorem witness_StepRunsTheDecodedCommand_refused :
    let s := presenting (encode (.dec2bcd 100)) State.reset
    s.hung = false ∧ s.fetch = some (encode (.dec2bcd 100)) ∧
      decode (encode (.dec2bcd 100)) = .ok (.dec2bcd 100) ∧
      exec (.dec2bcd 100) s = .refused (.dec2bcdOutsideDomain 100) := ⟨by decide, by decide, by decide, rfl⟩

theorem witness_BlockWaitsOrDoesNotGoOn :
    State.hung { State.reset with hung := true } = true ∧
      (let s := { presenting (encode .rddt) State.reset with cp := 1 }
      s.hung = false ∧ s.program.length ≤ s.cp) := by decide

theorem witness_Dec2bcdPacksTwoDigits :
    ((0 : Int) ≤ 0 ∧ (0 : Int) ≤ 99) ∧ ((0 : Int) ≤ 99 ∧ (99 : Int) ≤ 99) ∧ ¬((0 : Int) ≤ -1 ∧ (-1 : Int) ≤ 99) ∧
      ¬((0 : Int) ≤ 100 ∧ (100 : Int) ≤ 99) := by decide

/-- Both sides of the converse: a valid BCD byte has both, and a byte with a bad digit neither. -/
theorem witness_BcdRoundTrips :
    (bcd2dec 0x99 ≤ 99 ∧ dec2bcd (bcd2dec 0x99) = 0x99) ∧ ¬(bcd2dec 0x1F ≤ 99 ∧ dec2bcd (bcd2dec 0x1F) = 0x1F) := by
  decide

/-- Inside: the two corners. Outside: one bound at a time. -/
theorem witness_WdayGivesTheWeekday :
    wdayDomain 1 1 1 = true ∧ wdayDomain 31 12 1 = true ∧ wdayDomain 0 1 1 = false ∧ wdayDomain 32 1 1 = false ∧
      wdayDomain 1 0 1 = false ∧ wdayDomain 1 13 1 = false ∧ wdayDomain 1 1 0 = false := by decide

/-- The first day of year 1, the last day of a year, a leap day. -/
theorem witness_WeekdayFollowsTheGregorianCalendar :
    ((1 : Int) ≤ daysIn 1 1 ∧ nextDay 1 1 1 = (2, 1, 1)) ∧ ((31 : Int) ≤ daysIn 12 2099 ∧
      nextDay 31 12 2099 = (1, 1, 2100)) ∧ ((29 : Int) ≤ daysIn 2 2000 ∧ nextDay 29 2 2000 = (1, 3, 2000)) ∧
      nextDay 28 2 2100 = (1, 3, 2100) := by decide

theorem witness_OfsencMasksOrRejects :
    ((-62 : Int) ≤ -62 ∧ (-62 : Int) ≤ 63) ∧ ((-62 : Int) ≤ 63 ∧ (63 : Int) ≤ 63) ∧
      ((-63 : Int) < -62 ∨ (63 : Int) < -63) ∧ ((64 : Int) < -62 ∨ (63 : Int) < 64) := by decide

/-- A command on each side of the equivalence. -/
theorem witness_OnlyTheTwoDomainsAreRefused :
    exec (.wday 1 13 2024) State.reset = .refused (.wdayOutsideDomain 1 13 2024) ∧
      (Instr.wday 1 13 2024).inDomain = false ∧ (Instr.wday 1 12 2024).inDomain = true := ⟨rfl, by decide, by decide⟩

theorem witness_InitedGatesTheCommands :
    (∃ t, exec (.init none) (fresh [] (failing 0 0)) = .next t ∧ t.outcomes = [.errBus] ∧ t.inited = true) ∧
      (Instr.rddt.isDevice = true ∧ State.reset.inited = false) ∧ (ready [] []).inited = true ∧
      (Instr.dec2bcd 99).isCodec = true ∧ (Instr.dec2bcd 99).inDomain = true :=
  ⟨⟨_, rfl, by decide⟩, by decide⟩

theorem witness_ErrOpExactlyWhenTheStateRefuses :
    (∃ t, exec (.init none) (ready [] []) = .next t ∧ t.outcomes = [.errOp]) ∧
      (∃ t, exec .walmrst State.reset = .next t ∧ t.outcomes = [.errOp]) ∧
      ∃ t, exec .ofsget (ready [] (static 1)) = .next t ∧ t.outcomes ≠ [.errOp] :=
  ⟨⟨_, rfl, by decide⟩, ⟨_, rfl, by decide⟩, _, rfl, by decide⟩

/-- The bits outside the three: all of them at once. -/
theorem witness_StatusCheckTestsThreeBits :
    (0x8F : Byte) &&& (Cfg.default.mPon ||| Cfg.default.mXstp ||| Cfg.default.mVdet) = 0 := by decide

/-- A second INIT; a clean status; an anomaly. -/
theorem witness_InitChecksTheStatus :
    (ready [] []).inited = true ∧ (ready [] []).cfg.clearShape = .twoOneByte ∧
      (let s := fresh (control 0xFF 0x8F) (static 1)
      s.inited = false ∧ answered s 1 ∧ statChk s.cfg ((s.mem.drift (s.upcoming 0).drift).read 15) = false) ∧
      (let s := fresh (control 0xC7 0x10) (static 3)
      s.inited = false ∧ answered s 3 ∧ statChk s.cfg ((s.mem.drift (s.upcoming 0).drift).read 15) = true) := by
  decide

/-- A failing read; a failing first write; a failing second write. -/
theorem witness_InitChecksTheStatus_failures :
    (let s := fresh [] (failing 0 0)
    s.inited = false ∧ (s.upcoming 0).answer = .failed 0) ∧
      (let s := fresh (control 0xC7 0x40) (failing 1 1)
      s.inited = false ∧ answered s 1 ∧ statChk s.cfg ((s.mem.drift (s.upcoming 0).drift).read 15) = true ∧
        (s.upcoming 1).answer = .failed 1) ∧
      (let s := fresh (control 0xC7 0x20) (failing 2 0)
      s.inited = false ∧ answered s 2 ∧ statChk s.cfg ((s.mem.drift (s.upcoming 0).drift).read 15) = true ∧
        (s.upcoming 2).answer = .failed 0) := by decide

theorem witness_ClearShapesAgreeOnAStaticDevice :
    let s := fresh (control 0xC7 0x5F) (static 3)
    s.inited = false ∧ staticFor s 3 := by decide

theorem witness_AFailedInitNeedsAReset :
    ∃ t, exec (.init none) (fresh [] (failing 0 0)) = .next t ∧ t.outcomes = [.errBus] ∧
      (fresh [] (failing 0 0)).inited = false ∧ (fresh [] (failing 0 0)).hung = false := ⟨_, rfl, by decide⟩

/-- A read that is answered, with the environment changing the device before it; a read that fails. -/
theorem witness_RddtReturnsTheMaskedTuple :
    (let s := ready (control 1 2) [drifting]
    s.inited = true ∧ answered s 1) ∧
      (let s := ready [] (failing 0 3)
      s.inited = true ∧ (s.upcoming 0).answer = .failed 3) := by decide

/-- Each field in turn, just outside its range, absent, or with an earlier and a later one failing. -/
theorem witness_DatetimeIsValidatedInOrder :
    firstFailing (datetimeChecks (some 60) (some 60) (some 0) (some 1) (some 1) (some 0) none) = some .seconds ∧
      firstFailing (datetimeChecks (some 59) none (some 0) (some 1) (some 1) (some 0) none) = some .minutes ∧
      firstFailing (datetimeChecks (some 0) (some 0) (some 24) (some 1) (some 1) (some 0) none) = some .hours ∧
      firstFailing (datetimeChecks (some 0) (some 0) (some 0) (some 0) (some 1) (some 0) none) = some .date ∧
      firstFailing (datetimeChecks (some 0) (some 0) (some 0) (some 31) (some 13) (some 0) none) = some .month ∧
      firstFailing (datetimeChecks (some 0) (some 0) (some 0) (some 1) (some 1) (some (-1)) none) = some .year ∧
      firstFailing (datetimeChecks (some 0) (some 0) (some 0) (some 1) (some 1) (some 0) (some 7)) = some .weekday ∧
      firstFailing (datetimeChecks (some 0) (some 0) (some 0) (some 1) (some 1) (some 0) none) = none ∧
      firstFailing (datetimeChecks (some 59) (some 59) (some 23) (some 31) (some 12) (some 99) (some 6)) = none := by
  decide

/-- A failing field; operands at both ends of their ranges, with and without a weekday, on each path. -/
theorem witness_WrdtWritesTheTimeThenClearsVdet :
    ((ready [] []).inited = true ∧
      firstFailing (datetimeChecks (some 60) (some 0) (some 0) (some 1) (some 1) (some 0) none) = some .seconds) ∧
      firstFailing (datetimeChecks (some 0) (some 0) (some 0) (some 1) (some 1) (some 0) none) = none ∧
      firstFailing (datetimeChecks (some 59) (some 59) (some 23) (some 31) (some 12) (some 99) (some 6)) = none ∧
      (let s := ready (control 0 0x70) (static 3)
      s.inited = true ∧ answered s 3) ∧
      (let s := ready [] (failing 0 3)
      s.inited = true ∧ (s.upcoming 0).answer = .failed 3) ∧
      (let s := ready [] (failing 1 0)
      s.inited = true ∧ answered s 1 ∧ (s.upcoming 1).answer = .failed 0) ∧
      (let s := ready [] (failing 2 1)
      s.inited = true ∧ answered s 2 ∧ (s.upcoming 2).answer = .failed 1) := by decide

theorem witness_DatetimeRoundTripsOnAStaticDevice :
    let s := ready (control 0x24 0x4F) (static 4)
    s.inited = true ∧ s.mem.wf = true ∧ staticFor s 4 ∧
      firstFailing (datetimeChecks (some 59) (some 59) (some 23) (some 31) (some 12) (some 99) none) = none := by decide

theorem witness_OfsgetReturnsTheSignedTrim :
    (let s := ready (Memory.write [] 7 0x42) (static 1)
    s.inited = true ∧ answered s 1) ∧
      (let s := ready [] (failing 0 1)
      s.inited = true ∧ (s.upcoming 0).answer = .failed 1) := by decide

/-- The bounds of the range, and just outside, are those of `witness_OfsencMasksOrRejects`. -/
theorem witness_OfssetWritesOrRejects :
    (let s := ready [] (static 1)
    s.inited = true ∧ answered s 1) ∧
      (let s := ready [] (failing 0 1)
      s.inited = true ∧ (s.upcoming 0).answer = .failed 1) := by decide

theorem witness_OffsetRoundTripsOnAStaticDevice :
    let s := ready (Memory.write [] 7 0x76) (static 2)
    s.inited = true ∧ s.mem.wf = true ∧ staticFor s 2 := by decide

/-- A named mode that sets the field, one that does not, none; each path. -/
theorem witness_CtmodeRewritesOnlyTheSelector :
    (some 3 = some Cfg.default.ct1Hz ∧ some 2 = some Cfg.default.ct2Hz ∧
      ¬(some 4 = some Cfg.default.ct1Hz ∨ some 4 = some Cfg.default.ct2Hz)) ∧
      (let s := ready (control 0xC4 0) (static 2)
      s.inited = true ∧ answered s 2) ∧
      (let s := ready [] (failing 0 0)
      s.inited = true ∧ (s.upcoming 0).answer = .failed 0) ∧
      (let s := ready [] (failing 1 1)
      s.inited = true ∧ answered s 1 ∧ (s.upcoming 1).answer = .failed 1) := by decide

/-- For the failing operands of DALMSET and WALMSET: both failing (minutes named), hours alone failing; each path. -/
theorem witness_alarm_set_failing_operands :
    almTime (some 24) (some 60) = .error .minutes ∧ almTime (some (-1)) (some 59) = .error .hours ∧
      (let s := ready (control 0xD3 0x08) (static 1)
      s.inited = true ∧ answered s 1) ∧
      (let s := ready [] (failing 0 1)
      s.inited = true ∧ (s.upcoming 0).answer = .failed 1) := by decide

/-- For the six statements of the alarm commands: operands at both ends and absent, and every path. -/
theorem witness_alarm_paths :
    almTime (some 23) (some 59) = .ok (0x59, 0x23) ∧ almTime none none = .ok (0x00, 0x00) ∧
      (let s := ready (control 0xFF 0xFF) (static 3)
      s.inited = true ∧ answered s 3 ∧ answered s 2) ∧
      (let s := ready [] (failing 0 2)
      s.inited = true ∧ (s.upcoming 0).answer = .failed 2) ∧
      (let s := ready (control 0x24 0x0F) (failing 1 1)
      s.inited = true ∧ (s.upcoming 0).answer = .done ∧ (s.upcoming 1).answer = .failed 1) ∧
      (let s := ready [] (failing 2 1)
      s.inited = true ∧ answered s 2 ∧ (s.upcoming 2).answer = .failed 1) := by decide

theorem witness_DisableIsIdempotentOnAStaticDevice :
    let s := ready (control 0xE4 0x0F) (static 6)
    s.inited = true ∧ s.mem.wf = true ∧ staticFor s 6 := by decide

/-- With `x[10]` equal to the device's register, so that the first clause's hypotheses hold with the rest. -/
theorem witness_WeekdayMaskIsKeptOrOverwritten :
    let s := { ready (Memory.write [] 10 0x41) (static 3) with x := (Vector.replicate 16 0).set 10 0x41 }
    s.inited = true ∧ s.mem.wf = true ∧ staticFor s 3 ∧ almTime (some 8) (some 0) = .ok (0x00, 0x08) ∧
      s.mem.read 10 = s.getX 10 ∧ (0x06 : BitVec 7) ≠ 0 := by decide

theorem witness_EveryCommandGivesOneOutcomeOrHangs :
    (ready [] (static 1)).hung = false ∧ (ready [] hanging).hung = false ∧
      (∃ t, exec .ofsget (ready [] (static 1)) = .next t ∧ t.hung = false) ∧
      ∃ t, exec .ofsget (ready [] hanging) = .next t ∧ t.hung = true :=
  ⟨rfl, rfl, ⟨_, rfl, by decide⟩, _, rfl, by decide⟩

theorem witness_ErrBusExactlyWhenATransferFailed :
    (∃ t, exec .dalmclr (ready [] (failing 2 1)) = .next t ∧ t.outcomes = [.errBus]) ∧
      ∃ t, exec .dalmclr (ready [] (static 3)) = .next t ∧ t.outcomes = [.ok .empty] :=
  ⟨⟨_, rfl, by decide⟩, _, rfl, by decide⟩

/-- One command for each clause. -/
theorem witness_TransfersFollowTheTable :
    (∃ t, exec .dalmclr (ready [] (static 3)) = .next t ∧ t.outcomes = [.ok .empty]) ∧
      (∃ t, exec (.init none) (fresh (control 0 0x10) (static 3)) = .next t ∧ t.outcomes = [.warnStatus]) ∧
      (∃ t, exec (.init none) (fresh [] (static 3)) = .next t ∧ t.outcomes = [.ok .empty]) ∧
      (∃ t, exec (.ofsset 64) (ready [] []) = .next t ∧ t.outcomes = [.rejValue]) ∧
      ∃ t, exec (.walmset none (some 60) 0) (ready [] (static 3)) = .next t ∧ t.outcomes = [.errArg .minutes] :=
  ⟨⟨_, rfl, by decide⟩, ⟨_, rfl, by decide⟩, ⟨_, rfl, by decide⟩, ⟨_, rfl, by decide⟩, _, rfl, by decide⟩

/-- WALMSET without a mask may not change `x[10]`, with a mask it may. -/
theorem witness_MirrorChangesOnlyAsTheTableSays :
    (∃ t, exec (.walmset none none 0) (ready [] (static 3)) = .next t) ∧
      (10 : RegIndex) ∉ (Instr.walmset none none 0).mirrorWrites ∧
      (10 : RegIndex) ∈ (Instr.walmset none none 1).mirrorWrites := ⟨⟨_, rfl⟩, by decide, by decide⟩

/-- `drifting` changes no register but 13. -/
theorem undrifted_of_drifting {s : State} {n : Nat} {a : RegIndex} (ha : 13 ≠ a)
    (h : ∀ k < n, s.upcoming k = drifting) : undrifted s n a := by
  intro k hk p hp
  rw [h k hk] at hp
  rcases List.mem_cons.mp hp with rfl | hp
  · exact ha
  · exact List.mem_singleton.mp hp ▸ ha

/-- The environment changes register 13, register 12 is not stored to. -/
theorem witness_DeviceChangesOnlyWhereTheCommandStores :
    let s := ready [] [drifting, drifting, drifting]
    (∃ t, exec .walmclr s = .next t ∧ issuedSince s t = 3) ∧ undrifted s 3 12 ∧
      (12 : RegIndex) ∉ Instr.walmclr.deviceWrites :=
  ⟨⟨_, rfl, by decide⟩, undrifted_of_drifting (by decide) (by decide), by decide⟩

theorem witness_OnlyInitWritesTheConstructionState :
    (∃ t, exec .rddt (ready [] (static 1)) = .next t) ∧ Instr.rddt.isInit = false := ⟨⟨_, rfl⟩, by decide⟩

theorem witness_Control2BitsAreNeverSet :
    let s := ready (control 0 0xFF) [drifting, drifting]
    (∃ t, exec .walmrst s = .next t ∧ issuedSince s t = 2) ∧ undrifted s 2 15 ∧ s.mem.wf = true ∧ s.cfg.wf = true ∧
      Instr.walmrst.isInit = false :=
  ⟨⟨_, rfl, by decide⟩, undrifted_of_drifting (by decide) (by decide), by decide, by decide, by decide⟩

theorem witness_Control1KeepsTheFieldsNoCommandSets :
    let s := ready (control 0x2C 0) [drifting, drifting]
    (∃ t, exec .walmrst s = .next t ∧ issuedSince s t = 2) ∧ undrifted s 2 14 ∧ s.mem.wf = true ∧ s.cfg.wf = true ∧
      Instr.walmrst.isInit = false ∧ Instr.walmrst.opcode ≠ 0x0D :=
  ⟨⟨_, rfl, by decide⟩, undrifted_of_drifting (by decide) (by decide), by decide, by decide, by decide, by decide⟩

/-- Two mirrors that agree at 10 and nowhere else. -/
theorem witness_OnlyWeekdayMaskOfTheMirrorIsEverUsed :
    let s' := { ready [] (static 3) with x := (Vector.replicate 16 (0xFF : Byte)).set 10 0x00 }
    sameButMirror (ready [] (static 3)) s' ∧ s'.x ≠ (ready [] (static 3)).x := ⟨⟨rfl, rfl⟩, by decide⟩

/-- A state in the middle of a run that has the invariant, and its step. -/
theorem witness_EveryStepKeepsTheInvariant :
    Inv (presenting (encode (.walmset (some 8) (some 0) 0x06)) (ready (control 0x24 0x0F) (static 3))) ∧
      ∃ t, step (presenting (encode (.walmset (some 8) (some 0) 0x06)) (ready (control 0x24 0x0F) (static 3))) = .next t ∧
        t.outcomes = [.ok .empty] :=
  ⟨⟨by decide, by decide, by decide, by decide, by decide, by decide, by decide, by decide, by decide, by decide⟩,
    _, rfl, by decide⟩

end Sys2Proof.Tests
end

section
/-! The expansion of the host's pseudo-operations (30_encoding.md R67). Those that choose between two commands do so by
which operands are given, so their equations split on the operands' presence. -/

namespace Sys2Proof.Machine

/-- 44_alarms.md R154: one given operand is enough for DALMSET. -/
theorem expand_dailyAlarm (hours minutes : Option Int) :
    expand (.dailyAlarm hours minutes) =
      if hours.isNone ∧ minutes.isNone then .dalmclr else .dalmset hours minutes := by
  cases hours with
  | some h => rfl
  | none =>
    cases minutes with
    | some m => rfl
    | none => rfl

/-- 44_alarms.md R158: one given operand is enough for WALMSET, a weekday mask of zero included, for it is present. -/
theorem expand_weeklyAlarm (hours minutes : Option Int) (weekdays : Option (BitVec 7)) :
    expand (.weeklyAlarm hours minutes weekdays) =
      if hours.isNone ∧ minutes.isNone ∧ weekdays.isNone then .walmclr
      else .walmset hours minutes (weekdays.getD 0) := by
  cases hours with
  | some h => rfl
  | none =>
    cases minutes with
    | some m => rfl
    | none =>
      cases weekdays with
      | some mask => rfl
      | none => rfl

/-- Settles O44: the two alarms by the presence of their operands, the rest by the equations of `expand`. -/
theorem pseudoOperationsExpandToOneCommand : Obligations.PseudoOperationsExpandToOneCommand := by
  unfold Obligations.PseudoOperationsExpandToOneCommand
  refine ⟨fun y mo d wd h mi s => ⟨?wrtup, ?wrnow⟩, ?offsetRead, fun v => ?offsetWrite, expand_dailyAlarm,
    expand_weeklyAlarm, fun addr s => ⟨?constructInit, ?constructReset⟩⟩
  case wrtup => rfl
  case wrnow => rfl
  case offsetRead => rfl
  case offsetWrite => rfl
  case constructInit => rfl
  case constructReset => rfl

end Sys2Proof.Machine
end

section
/-! The codec commands (40_codec.md): what the byte functions behind them do to the numeric value of a byte, and the wire
address of every transfer. -/

namespace Sys2Proof.Machine

/-- A nibble moved up by its own width. -/
theorem shiftLeft_four (n : Nat) : n <<< 4 = 16 * n := by rw [Nat.shiftLeft_eq, Nat.mul_comm]

/-! ### BCD -/

theorem toNat_and_lowNibble (b : Byte) : (b &&& 0xF).toNat = b.toNat % 16 := by
  rw [BitVec.toNat_and]
  exact Nat.and_two_pow_sub_one_eq_mod b.toNat 4

theorem toNat_highNibble (b : Byte) : ((b >>> 4) &&& 0xF).toNat = b.toNat / 16 := by
  have hb := b.isLt
  rw [toNat_and_lowNibble, BitVec.toNat_ushiftRight, Nat.shiftRight_eq_div_pow]
  omega

/-- 40_codec.md R81 in arithmetic: the digits' mask and shift are a remainder and a quotient. -/
theorem bcd2dec_eq (b : Byte) : bcd2dec b = (b.toNat / 16 * 10 + b.toNat % 16 : Nat) := by
  rw [bcd2dec, toNat_highNibble, toNat_and_lowNibble]

/-- Two digits that fit their nibbles are packed without overlap. -/
theorem toNat_packNibbles {h l : Nat} (hh : h < 16) (hl : l < 16) :
    ((BitVec.ofNat 8 h <<< 4) ||| BitVec.ofNat 8 l).toNat = 16 * h + l := by
  have hor : 16 * h ||| l = 16 * h + l := by rw [← shiftLeft_four, Nat.shiftLeft_add_eq_or_of_lt hl h]
  rw [BitVec.toNat_or, BitVec.toNat_shiftLeft, BitVec.toNat_ofNat, BitVec.toNat_ofNat,
    Nat.mod_eq_of_lt (by omega : h < 2 ^ 8), shiftLeft_four, Nat.mod_eq_of_lt (by omega : 16 * h < 2 ^ 8),
    Nat.mod_eq_of_lt (by omega : l < 2 ^ 8), hor]

theorem dec2bcd_natCast (n : Nat) : dec2bcd n = (BitVec.ofNat 8 (n / 10) <<< 4) ||| BitVec.ofNat 8 (n % 10) := rfl

/-- 40_codec.md R82 in arithmetic, on the domain of DEC2BCD. -/
theorem toNat_dec2bcd {n : Nat} (hn : n ≤ 99) : (dec2bcd n).toNat = 16 * (n / 10) + n % 10 := by
  rw [dec2bcd_natCast, toNat_packNibbles (by omega) (by omega)]

theorem bcd2dec_dec2bcd {n : Nat} (hn : n ≤ 99) : bcd2dec (dec2bcd n) = n := by
  rw [bcd2dec_eq, toNat_dec2bcd hn]
  omega

/-- The value of a byte, when it is in the encoder's domain, is packed into that byte exactly when it has the byte's two
nibbles as its decimal digits. -/
theorem dec2bcd_bcd2dec_iff {b : Byte} (hb : b.toNat / 16 * 10 + b.toNat % 16 ≤ 99) :
    dec2bcd (bcd2dec b) = b ↔ b.toNat / 16 ≤ 9 ∧ b.toNat % 16 ≤ 9 := by
  rw [bcd2dec_eq, ← BitVec.toNat_inj, toNat_dec2bcd hb]
  omega

/-! ### The wire address -/

/-- 40_codec.md R90 in arithmetic: the shift is a product, and the mask keeps every bit of a byte. -/
theorem regAddr_eq (idx : BitVec 4) : regAddr idx = BitVec.ofNat 8 (16 * idx.toNat) := by
  have hmask : regAddr idx = idx.setWidth 8 <<< 4 := BitVec.and_allOnes
  apply BitVec.eq_of_toNat_eq
  rw [hmask, BitVec.toNat_shiftLeft, BitVec.toNat_setWidth_of_le (by decide), shiftLeft_four, BitVec.toNat_ofNat]

theorem Span.wire_eq (sp : Span) : sp.wire = BitVec.ofNat 8 (16 * sp.start.val) := by
  rw [Span.wire, regAddr_eq, BitVec.toNat_ofNat, Nat.mod_eq_of_lt sp.start.isLt]

/-- A load into the mirror is no transfer. -/
@[simp] theorem State.setXs_bus (s : State) (is : List RegIndex) (bs : List Byte) : (s.setXs is bs).bus = s.bus := by
  rw [State.setXs_eq]

theorem State.issue_read_bus (s : State) (sp : Span) (bs : List Byte) (m : Memory) :
    (s.issue .read sp bs m).bus =
      s.bus ++ [Transfer.rd s.sa (BitVec.ofNat 8 (16 * sp.start.val)) sp.count bs] := by
  rw [State.issue_bus, Span.wire_eq, Transfer.rd]

theorem State.issue_write_bus (s : State) (sp : Span) (bs : List Byte) (m : Memory) :
    (s.issue .write sp bs m).bus =
      s.bus ++ [Transfer.wr s.sa (BitVec.ofNat 8 (16 * sp.start.val)) sp.count bs] := by
  rw [State.issue_bus, Span.wire_eq, Transfer.wr]

/-- A read that is answered puts the bytes returned on the bus, one that is not puts none. -/
theorem State.memRead_issues (s : State) (sp : Span) (k : State → State) :
    ∃ t bytes, (s.memRead sp k = k t ∨ s.memRead sp k = t.raise .errBus ∨ s.memRead sp k = t.hang) ∧
      t.bus = s.bus ++ [Transfer.rd s.sa (BitVec.ofNat 8 (16 * sp.start.val)) sp.count bytes] := by
  obtain ⟨-, hdone⟩ | ⟨_, -, hfailed⟩ | ⟨_, -, hnever⟩ := s.memRead_cases sp k
  · exact ⟨_, s.readBytes sp, .inl hdone, by rw [State.setXs_bus, State.issue_read_bus]⟩
  · exact ⟨_, [], .inr (.inl hfailed), s.issue_read_bus sp _ _⟩
  · exact ⟨_, [], .inr (.inr hnever), s.issue_read_bus sp _ _⟩

/-- A write puts the mirror's bytes on the bus, whatever prefix of them is delivered. -/
theorem State.memWrite_issues (s : State) (sp : Span) (k : State → State) :
    ∃ t, (s.memWrite sp k = k t ∨ s.memWrite sp k = t.raise .errBus ∨ s.memWrite sp k = t.hang) ∧
      t.bus = s.bus ++
        [Transfer.wr s.sa (BitVec.ofNat 8 (16 * sp.start.val)) sp.count (s.getXs sp.indices)] := by
  obtain ⟨-, hdone⟩ | ⟨_, -, hfailed⟩ | ⟨_, -, hnever⟩ := s.memWrite_cases sp k
  · exact ⟨_, .inl hdone, s.issue_write_bus sp _ _⟩
  · exact ⟨_, .inr (.inl hfailed), s.issue_write_bus sp _ _⟩
  · exact ⟨_, .inr (.inr hnever), s.issue_write_bus sp _ _⟩

/-! ### The codec commands -/

theorem exec_bcd2dec (b : Byte) (s : State) : exec (.bcd2dec b) s = .next (s.finish (.ok (.int (bcd2dec b)))) := rfl

theorem exec_regaddr (idx : BitVec 4) (s : State) :
    exec (.regaddr idx) s = .next (s.finish (.ok (.byte (regAddr idx)))) := rfl

/-- Settles O7: the command returns `bcd2dec`, whose value is the arithmetic of `bcd2dec_eq`. -/
theorem bcd2decGivesTheDecimalValue : Obligations.Bcd2decGivesTheDecimalValue := by
  unfold Obligations.Bcd2decGivesTheDecimalValue
  intro s b
  refine ⟨rfl, ?_⟩
  rw [exec_bcd2dec, bcd2dec_eq, State.finish]

/-- Settles O9: both directions compare the numeric values of the bytes. -/
theorem bcdRoundTrips : Obligations.BcdRoundTrips := by
  unfold Obligations.BcdRoundTrips
  constructor
  · intro d h0 h99
    obtain ⟨n, rfl⟩ := Int.eq_ofNat_of_zero_le h0
    exact bcd2dec_dec2bcd (by omega)
  · intro b
    have hdomain : bcd2dec b ≤ 99 ↔ b.toNat / 16 * 10 + b.toNat % 16 ≤ 99 := by
      rw [bcd2dec_eq]
      omega
    constructor
    · rintro ⟨hle, hback⟩
      exact (dec2bcd_bcd2dec_iff (hdomain.mp hle)).mp hback
    · intro hdigits
      have hle : b.toNat / 16 * 10 + b.toNat % 16 ≤ 99 := by omega
      exact ⟨hdomain.mpr hle, (dec2bcd_bcd2dec_iff hle).mpr hdigits⟩

/-- Settles O15: REGADDR by `regAddr_eq`, the transfers by the three ways one can end. -/
theorem regaddrShiftsTheIndex : Obligations.RegaddrShiftsTheIndex := by
  unfold Obligations.RegaddrShiftsTheIndex
  refine ⟨fun s idx => ⟨rfl, ?_⟩, fun s sp k => ⟨s.memRead_issues sp k, s.memWrite_issues sp k⟩⟩
  rw [exec_regaddr, regAddr_eq, State.finish]

end Sys2Proof.Machine
end

section
/-! The status check (43_composer.md R132): a test of several fields at once is a test of each, and a test sees only the
bits of its mask. -/

namespace Sys2Proof.Machine

/-- 43_composer.md R130, the test read as a proposition. -/
theorem ftst_iff (r m : Byte) : ftst r m = true ↔ r &&& m ≠ 0 := bne_iff_ne

/-- A joined mask tests either field. -/
theorem ftst_or (r m₁ m₂ : Byte) : ftst r (m₁ ||| m₂) = true ↔ ftst r m₁ = true ∨ ftst r m₂ = true := by
  have hclear : r &&& (m₁ ||| m₂) = 0 ↔ r &&& m₁ = 0 ∧ r &&& m₂ = 0 := by
    rw [BitVec.and_or_distrib_left]
    exact BitVec.or_eq_zero_iff
  rw [ftst_iff, ftst_iff, ftst_iff, Ne, hclear, not_and_or]

/-- Changing bits outside the field leaves the field as it is. -/
theorem xor_and_of_and_eq_zero {r d m : Byte} (h : d &&& m = 0) : (r ^^^ d) &&& m = r &&& m := by
  have hdistrib : (r ^^^ d) &&& m = (r &&& m) ^^^ (d &&& m) :=
    BitVec.eq_of_getElem_eq fun i hi => by
      simp only [BitVec.getElem_and, BitVec.getElem_xor, Bool.and_xor_distrib_right]
  rw [hdistrib, h]
  exact BitVec.xor_zero

theorem ftst_xor_of_and_eq_zero {r d m : Byte} (h : d &&& m = 0) : ftst (r ^^^ d) m = ftst r m := by
  rw [ftst, ftst, xor_and_of_and_eq_zero h]

/-- Settles O21: the check is one test with the three masks joined, which `ftst_or` takes apart. -/
theorem statusCheckTestsThreeBits : Obligations.StatusCheckTestsThreeBits := by
  unfold Obligations.StatusCheckTestsThreeBits
  refine ⟨fun c c2 => ?anyField, fun c c2 m houtside => ?otherBits, fun c2 => ?defaultMask⟩
  case anyField => rw [statChk, ftst_or, ftst_or, ftst_iff, ftst_iff, ftst_iff, or_assoc]
  case otherBits => exact ftst_xor_of_and_eq_zero houtside
  case defaultMask =>
    have hmask : Cfg.default.mPon ||| Cfg.default.mXstp ||| Cfg.default.mVdet = 0x70 := by decide
    rw [statChk, hmask]

end Sys2Proof.Machine
end

section
/-! Every command as a plan: the course of a command written down as data, so that a statement about every command is an
induction over plans and a look at eighteen of them. `exec_eq_run` ties the plans to the model. -/

namespace Sys2Proof.Machine

/-- The course of a command: what it does up to its end, where no transfer ends it before. -/
inductive Plan where
  /-- The command ends, with an outcome made from the mirror bytes `is`. -/
  | stop (is : List RegIndex) (o : List Byte → CmdOutcome)
  /-- Goes on by `inited`. -/
  | ifInited (yes no : Plan)
  /-- Goes on by the status check of the mirror's Control2 (43_composer.md R132). -/
  | ifStatus (bad good : Plan)
  /-- Goes on by the shape of the defensive clear. -/
  | byShape (two one : Plan)
  /-- INIT's first actions. -/
  | begin (addr : Option SlaveAddr) (next : Plan)
  | sterr (v : Bool) (next : Plan)
  /-- `x[i] <- v`, a value that depends on the parameters alone. -/
  | put (i : RegIndex) (v : Cfg → Byte) (next : Plan)
  /-- `x[i] <- f(x[i])`. -/
  | modify (i : RegIndex) (f : Cfg → Byte → Byte) (next : Plan)
  | read (sp : Span) (next : Plan)
  | write (sp : Span) (next : Plan)

/-- The state in which the plan, started at `s`, ends. -/
def Plan.run : Plan → State → State
  | .stop is o, s => s.finish (o (s.getXs is))
  | .ifInited yes no, s => if s.inited then yes.run s else no.run s
  | .ifStatus bad good, s => if statChk s.cfg (s.getX 15) then bad.run s else good.run s
  | .byShape two one, s =>
    match s.cfg.clearShape with
    | .twoOneByte => two.run s
    | .oneTwoByte => one.run s
  | .begin addr next, s => next.run (s.beginInit addr)
  | .sterr v next, s => next.run (s.setSterr v)
  | .put i v next, s => next.run (s.setX i (v s.cfg))
  | .modify i f next, s => next.run (s.setX i (f s.cfg (s.getX i)))
  | .read sp next, s => s.memRead sp fun s => next.run s
  | .write sp next, s => s.memWrite sp fun s => next.run s

/-- The command ends with `o`, whatever the mirror holds. -/
def Plan.result (o : CmdOutcome) : Plan := .stop [] fun _ => o

/-- A device command: refused before INIT (10_state.md R14). -/
def Plan.device (body : Plan) : Plan := .ifInited body (.result .errOp)

/-- Reads the Control block, makes `f1` and `f2` of its bytes and writes it back (43_composer.md R138); `puts` are the
assignments between. -/
def Plan.rewriteControl (puts : Plan → Plan) (f1 f2 : Cfg → Byte → Byte) (next : Plan) : Plan :=
  .read .control (puts (.modify 14 f1 (.modify 15 f2 (.write .control next))))

/-- The byte functions of ARM and DISARM for the two alarms (43_composer.md R138). -/
def setDale (c : Cfg) (b : Byte) : Byte := fset b (dailyEnable c)
def clearDale (c : Cfg) (b : Byte) : Byte := fclr b (dailyEnable c)
def clearDafg (c : Cfg) (b : Byte) : Byte := fclr b (dailyFlag c)
def setWale (c : Cfg) (b : Byte) : Byte := fset b (weeklyEnable c)
def clearWale (c : Cfg) (b : Byte) : Byte := fclr b (weeklyEnable c)
def clearWafg (c : Cfg) (b : Byte) : Byte := fclr b (weeklyFlag c)

/-- The two time bytes of an alarm, the minute at `i` and the hour at `j`. -/
def Plan.putTime (i j : RegIndex) (bm bh : Byte) (next : Plan) : Plan := .put i (fun _ => bm) (.put j (fun _ => bh) next)

/-- The weekday byte, unless the mask is zero. -/
def Plan.putMask (wdmask : BitVec 7) (next : Plan) : Plan :=
  if wdmask = 0 then next else .put 10 (fun _ => wdmask.setWidth 8) next

/-- The seven datetime bytes of WRDT (41_datetime.md R103, R104). -/
def Plan.putDatetime (t : DateTime) (wd : Option Int) (next : Plan) : Plan :=
  .put 0 (fun _ => dec2bcd t.seconds) <| .put 1 (fun _ => dec2bcd t.minutes) <|
  .put 2 (fun _ => dec2bcd t.hours ||| 0x80) <| .put 3 (fun c => dec2bcd (wrdtWeekday c t wd)) <|
  .put 4 (fun _ => dec2bcd t.date) <| .put 5 (fun _ => dec2bcd t.month) <| .put 6 (fun _ => dec2bcd t.year) next

/-- INIT's plan past its gate (43_composer.md R133). -/
def Plan.initBody (addr : Option SlaveAddr) : Plan :=
  .begin addr <| .read .control2 <| .ifStatus
    (.sterr true <| .put 14 (fun _ => 0x00) <| .put 15 (fun _ => 0x00) <| .byShape
      (.write .control1 <| .write .control2 <| .result .warnStatus)
      (.write .control <| .result .warnStatus))
    (.sterr false <| .result (.ok .empty))

/-- The plan of every command. -/
def planOf : Instr → Plan
  | .bcd2dec b => .result (.ok (.int (bcd2dec b)))
  | .dec2bcd d => .result (.ok (.byte (dec2bcd d)))
  | .wday date month year4 => .result (.ok (.int (wdayF date month year4)))
  | .ofsdec b => .result (.ok (.int (ofsDec b)))
  | .ofsenc v => .result (if ofsInRange v then .ok (.byte (ofsEnc v)) else .rejValue)
  | .regaddr idx => .result (.ok (.byte (regAddr idx)))
  | .init addr => .ifInited (.result .errOp) (.initBody addr)
  | .rddt => .device <| .read .datetime <| .stop Span.datetime.indices fun r => .ok (.dateTime (dtDec r))
  | .wrdt seconds minutes hours date month year weekday => .device <|
    match dtValid seconds minutes hours date month year weekday with
    | .error f => .result (.errArg f)
    | .ok (t, wd) => .putDatetime t wd <| .write .datetime <| .read .control2 <| .modify 15 vdetClr <|
        .write .control2 <| .result (.ok .empty)
  | .ofsget => .device <| .read .offset <| .stop [7] fun r => .ok (.int (ofsDec (r.getD 0 0)))
  | .ofsset v => .device <|
    if ofsInRange v then .put 7 (fun _ => ofsEnc v) <| .write .offset <| .result (.ok .empty) else .result .rejValue
  | .ctmode mode => .device <| .read .control1 <| .modify 14 (fun c b => ctSel c b mode) <| .write .control1 <|
      .result (.ok .empty)
  | .dalmset hours minutes => .device <|
    match almTime hours minutes with
    | .error f => .read .control <| .result (.errArg f)
    | .ok (bm, bh) => .rewriteControl (.putTime 11 12 bm bh) setDale clearDafg <| .write .dailyAlarm <| .result (.ok .empty)
  | .dalmclr => .device <| .rewriteControl (.putTime 11 12 0x00 0x00) clearDale clearDafg <| .write .dailyAlarm <|
      .result (.ok .empty)
  | .dalmrst => .device <| .rewriteControl id setDale clearDafg <| .result (.ok .empty)
  | .walmset hours minutes wdmask => .device <|
    match almTime hours minutes with
    | .error f => .read .control <| .result (.errArg f)
    | .ok (bm, bh) => .rewriteControl (fun p => .putTime 8 9 bm bh (.putMask wdmask p)) setWale clearWafg <|
        .write .weeklyAlarm <| .result (.ok .empty)
  | .walmclr => .device <| .rewriteControl (.putTime 8 9 0x00 0x00) clearWale clearWafg <| .write .weeklyAlarm <|
      .result (.ok .empty)
  | .walmrst => .device <| .rewriteControl id setWale clearWafg <| .result (.ok .empty)

/-! ### The plans are the commands -/

/-- The Control block computed from both its bytes at once, or one byte after the other. -/
theorem State.setControl_eq (s : State) (f g : Byte → Byte) :
    s.setControl (f (s.getX 14), g (s.getX 15)) =
      (s.setX 14 (f (s.getX 14))).setX 15 (g ((s.setX 14 (f (s.getX 14))).getX 15)) := by
  rw [State.getX_setX_ne s (by decide)]
  rfl

/-- The Control block with an alarm's bits computed, one byte after the other. -/
theorem State.setControl_arm (s : State) (en fg : Byte) :
    s.setControl (arm (s.getX 14) (s.getX 15) en fg) =
      (s.setX 14 (fset (s.getX 14) en)).setX 15 (fclr ((s.setX 14 (fset (s.getX 14) en)).getX 15) fg) :=
  s.setControl_eq (fset · en) (fclr · fg)

theorem State.setControl_disarm (s : State) (en fg : Byte) :
    s.setControl (disarm (s.getX 14) (s.getX 15) en fg) =
      (s.setX 14 (fclr (s.getX 14) en)).setX 15 (fclr ((s.setX 14 (fclr (s.getX 14) en)).getX 15) fg) :=
  s.setControl_eq (fclr · en) (fclr · fg)

theorem execWrdt_eq_run (se mi h d mo y wd : Option Int) (s : State) :
    execWrdt se mi h d mo y wd s = .next ((planOf (.wrdt se mi h d mo y wd)).run s) := by
  simp only [execWrdt, planOf]
  cases dtValid se mi h d mo y wd with
  | error f => rfl
  | ok p => rfl

theorem execOfsset_eq_run (v : Int) (s : State) : execOfsset v s = .next ((planOf (.ofsset v)).run s) := by
  simp only [execOfsset, planOf]
  cases ofsInRange v with
  | false => rfl
  | true => rfl

theorem execDalmset_eq_run (hours minutes : Option Int) (s : State) :
    execDalmset hours minutes s = .next ((planOf (.dalmset hours minutes)).run s) := by
  simp only [execDalmset, planOf]
  cases almTime hours minutes with
  | error f => rfl
  | ok p => simp only [State.setControl_arm]; rfl

theorem execDalmclr_eq_run (s : State) : execDalmclr s = .next ((planOf .dalmclr).run s) := by
  simp only [execDalmclr, State.setControl_disarm]
  rfl

theorem execDalmrst_eq_run (s : State) : execDalmrst s = .next ((planOf .dalmrst).run s) := by
  simp only [execDalmrst, State.setControl_arm]
  rfl

theorem execWalmset_eq_run (hours minutes : Option Int) (wdmask : BitVec 7) (s : State) :
    execWalmset hours minutes wdmask s = .next ((planOf (.walmset hours minutes wdmask)).run s) := by
  simp only [execWalmset, planOf]
  cases almTime hours minutes with
  | error f => rfl
  | ok p =>
    simp only [State.setControl_arm, Plan.putMask]
    split
    · rfl
    · rfl

theorem execWalmclr_eq_run (s : State) : execWalmclr s = .next ((planOf .walmclr).run s) := by
  simp only [execWalmclr, State.setControl_disarm]
  rfl

theorem execWalmrst_eq_run (s : State) : execWalmrst s = .next ((planOf .walmrst).run s) := by
  simp only [execWalmrst, State.setControl_arm]
  rfl

/-- In its domain a command is its plan. -/
theorem exec_eq_run {i : Instr} (h : i.inDomain = true) (s : State) : exec i s = .next ((planOf i).run s) := by
  cases i with
  | dec2bcd d =>
    have hd : dec2bcdDomain d = true := by simpa [Instr.inDomain, dec2bcdDomain] using h
    exact if_pos hd
  | wday date month year4 =>
    have hd : wdayDomain date month year4 = true := by simpa [Instr.inDomain, wdayDomain, and_assoc] using h
    exact if_pos hd
  | wrdt se mi hr d mo y wd => exact execWrdt_eq_run se mi hr d mo y wd s
  | ofsset v => exact execOfsset_eq_run v s
  | dalmset hours minutes => exact execDalmset_eq_run hours minutes s
  | dalmclr => exact execDalmclr_eq_run s
  | dalmrst => exact execDalmrst_eq_run s
  | walmset hours minutes wdmask => exact execWalmset_eq_run hours minutes wdmask s
  | walmclr => exact execWalmclr_eq_run s
  | walmrst => exact execWalmrst_eq_run s
  | _ => rfl

/-- Outside its domain a command is refused (40_codec.md R82, R85). -/
theorem exec_refused {i : Instr} (h : i.inDomain = false) : ∃ r, ∀ s, exec i s = .refused r := by
  cases i with
  | dec2bcd d =>
    have hd : ¬ dec2bcdDomain d = true := by simpa [Instr.inDomain, dec2bcdDomain] using h
    exact ⟨_, fun s => if_neg hd⟩
  | wday date month year4 =>
    have hd : ¬ wdayDomain date month year4 = true := by simpa [Instr.inDomain, wdayDomain, and_assoc] using h
    exact ⟨_, fun s => if_neg hd⟩
  | _ => cases h

/-- A command that answers a next state is in its domain, and the state is its plan's end. -/
theorem eq_run_of_exec {i : Instr} {s t : State} (h : exec i s = .next t) : t = (planOf i).run s := by
  cases hd : i.inDomain with
  | false =>
    obtain ⟨r, hr⟩ := exec_refused hd
    rw [hr s] at h
    cases h
  | true =>
    rw [exec_eq_run hd] at h
    exact (Host.Outcome.next.inj h).symm

end Sys2Proof.Machine
end

section
/-! The decoder and the encoder of the command port (30_encoding.md Part B), and the step that runs what is decoded. -/

namespace Sys2Proof.Machine

/-! ### Encoding -/

/-- The value lines of an absent operand are not read back. -/
@[simp] theorem operand_optPort {α : Type} (zero : α) (v : Option α) : (optPort zero v).operand = v := by
  cases v with
  | none => rfl
  | some v => rfl

/-- Settles O1, by the command: its code selects its own arm of the decoder, and every operand port reads back. -/
theorem decodeOfEncodeIsTheCommand : Obligations.DecodeOfEncodeIsTheCommand := by
  unfold Obligations.DecodeOfEncodeIsTheCommand
  intro i
  cases i with
  | init addr => simp [decode, encode, CommandPort.blank, Instr.opcode]
  | ctmode mode => simp [decode, encode, CommandPort.blank, Instr.opcode]
  | wrdt se mi h d mo y wd => simp [decode, encode, CommandPort.blank, Instr.opcode]
  | dalmset hours minutes => simp [decode, encode, CommandPort.blank, Instr.opcode]
  | walmset hours minutes wdmask => simp [decode, encode, CommandPort.blank, Instr.opcode]
  | _ => rfl

/-- Settles O4: the five bundles are evaluated. -/
theorem selectCodesDecodeToTheirCommands : Obligations.SelectCodesDecodeToTheirCommands := by
  unfold Obligations.SelectCodesDecodeToTheirCommands
  decide

/-! ### Decoding -/

/-- Every code the map lists is a command's, and none of them is reserved. -/
theorem opPort_statement (i : Instr) : Laws.OpPort.Statement i := by
  cases i with
  | bcd2dec b => exact Laws.OpPort.bcd2dec b
  | dec2bcd d => exact Laws.OpPort.dec2bcd d
  | wday date month year4 => exact Laws.OpPort.wday date month year4
  | ofsdec b => exact Laws.OpPort.ofsdec b
  | ofsenc v => exact Laws.OpPort.ofsenc v
  | regaddr idx => exact Laws.OpPort.regaddr idx
  | init addr => exact Laws.OpPort.init addr
  | rddt => exact Laws.OpPort.rddt
  | wrdt se mi h d mo y wd => exact Laws.OpPort.wrdt se mi h d mo y wd
  | ofsget => exact Laws.OpPort.ofsget
  | ofsset v => exact Laws.OpPort.ofsset v
  | ctmode mode => exact Laws.OpPort.ctmode mode
  | dalmset hours minutes => exact Laws.OpPort.dalmset hours minutes
  | dalmclr => exact Laws.OpPort.dalmclr
  | dalmrst => exact Laws.OpPort.dalmrst
  | walmset hours minutes wdmask => exact Laws.OpPort.walmset hours minutes wdmask
  | walmclr => exact Laws.OpPort.walmclr
  | walmrst => exact Laws.OpPort.walmrst

/-- Each arm of the decoder but the last answers a command with the arm's code. -/
theorem op_of_decode {p : CommandPort} {i : Instr} (h : decode p = .ok i) : p.op = i.opcode := by
  unfold decode at h
  split at h
  case h_19 => cases h
  all_goals
    cases h
    exact BitVec.eq_of_toNat_eq ‹_›

/-- The arm that decodes `p` decodes `q`, from the same operands. -/
theorem decode_of_samePorts {p q : CommandPort} {i : Instr} (h : decode p = .ok i) (hop : q.op = p.op)
    (hports : i.samePorts p q) : decode q = .ok i := by
  unfold decode at h ⊢
  rw [hop]
  split at h
  case h_19 => cases h
  all_goals
    cases h
    simp_all [Instr.samePorts]

/-- Settles O2: both halves by the arm of the decoder that answers. -/
theorem decodeReadsOnlyTheCommandsPorts : Obligations.DecodeReadsOnlyTheCommandsPorts := by
  unfold Obligations.DecodeReadsOnlyTheCommandsPorts
  exact fun p i h => ⟨op_of_decode h, fun q hop hports => decode_of_samePorts h hop hports⟩

/-- What the last arm of the decoder is left with. -/
theorem mem_reserved_of_error {p : CommandPort} {e : DecodeError} (h : decode p = .error e) :
    e = .reservedOp p.op ∧ p.op ∈ Laws.OpPort.reserved := by
  have hrest : ∀ op : BitVec 5, op.toNat ∉ [0, 1, 2, 3, 4, 5, 8, 9, 10, 11, 12, 13, 16, 17, 18, 20, 21, 22] →
      op ∈ Laws.OpPort.reserved := by decide
  unfold decode at h
  split at h
  case h_19 =>
    cases h
    refine ⟨rfl, hrest p.op ?_⟩
    simp only [List.mem_cons, List.not_mem_nil]
    grind only
  all_goals cases h

/-- A reserved code is no command's, so it decodes to an error. -/
theorem decode_of_reserved {p : CommandPort} (h : p.op ∈ Laws.OpPort.reserved) :
    decode p = .error (.reservedOp p.op) := by
  cases hd : decode p with
  | ok i =>
    obtain ⟨-, hcode⟩ := opPort_statement i
    exact absurd (op_of_decode hd ▸ h) hcode
  | error e =>
    obtain ⟨rfl, -⟩ := mem_reserved_of_error hd
    rfl

/-! ### The step -/

theorem hostAdvance_of_not_hung {s : State} (h : s.hung = false) : s.hostAdvance = { s with cp := s.cp + 1 } := by
  simp [State.hostAdvance, h]

theorem hostAdvance_of_hung {s : State} (h : s.hung = true) : s.hostAdvance = s := by simp [State.hostAdvance, h]

theorem step_of_hung {s : State} (h : s.hung = true) : step s = .fault .transferNeverReturns := by
  simp [step, h]

theorem step_of_no_command {s : State} (h : s.hung = false) (hf : s.fetch = none) : step s = .next s := by
  simp [step, h, hf]

theorem step_of_error {s : State} {p : CommandPort} {e : DecodeError} (h : s.hung = false) (hf : s.fetch = some p)
    (hd : decode p = .error e) : step s = .next (s.raise .errOp).hostAdvance := by
  simp [step, h, hf, hd]

theorem step_of_next {s t : State} {p : CommandPort} {i : Instr} (h : s.hung = false) (hf : s.fetch = some p)
    (hd : decode p = .ok i) (he : exec i s = .next t) : step s = .next t.hostAdvance := by
  simp [step, h, hf, hd, he]

theorem step_of_refused {s : State} {p : CommandPort} {i : Instr} {r : Refusal} (h : s.hung = false)
    (hf : s.fetch = some p) (hd : decode p = .ok i) (he : exec i s = .refused r) : step s = .refused r := by
  simp [step, h, hf, hd, he]

/-- Settles O3: the codes by the decoder's last arm, the step by its own rule for a reserved code. -/
theorem reservedCodesEndWithErrOp : Obligations.ReservedCodesEndWithErrOp := by
  unfold Obligations.ReservedCodesEndWithErrOp
  refine ⟨fun p => ⟨⟨fun h => ?listed, decode_of_reserved⟩, ?named⟩, fun s p hh hf hd => ?stepped⟩
  case listed =>
    obtain ⟨-, hmem⟩ := mem_reserved_of_error h
    exact hmem
  case named =>
    rintro ⟨e, h⟩
    obtain ⟨rfl, -⟩ := mem_reserved_of_error h
    exact h
  case stepped =>
    rw [step_of_error hh hf hd, hostAdvance_of_not_hung (by simpa using hh)]
    rfl

/-- Settles O5. -/
theorem stepRunsTheDecodedCommand : Obligations.StepRunsTheDecodedCommand := by
  unfold Obligations.StepRunsTheDecodedCommand
  exact fun s p i hh hf hd => ⟨fun t he => step_of_next hh hf hd he, fun r he => step_of_refused hh hf hd he⟩

/-- Settles O6: past the end of the host's list nothing is fetched. -/
theorem blockWaitsOrDoesNotGoOn : Obligations.BlockWaitsOrDoesNotGoOn := by
  unfold Obligations.BlockWaitsOrDoesNotGoOn
  exact fun s => ⟨step_of_hung, fun hh hlen => step_of_no_command hh (List.getElem?_eq_none hlen)⟩

end Sys2Proof.Machine
end

section
/-! Data formats and operand forms: BCD, the weekday, the trim offset, validation (40_codec.md, 41_datetime.md R102,
44_alarms.md R150), and the codec commands that return them. -/

namespace Sys2Proof.Machine

/-! ### BCD -/

/-- 40_codec.md R82 as one number. -/
theorem dec2bcd_eq_ofNat {n : Nat} (hn : n ≤ 99) : dec2bcd n = BitVec.ofNat 8 (16 * (n / 10) + n % 10) := by
  apply BitVec.eq_of_toNat_eq
  rw [toNat_dec2bcd hn, BitVec.toNat_ofNat]
  omega

theorem dec2bcd_eq_ofInt {d : Int} (h0 : 0 ≤ d) (h99 : d ≤ 99) : dec2bcd d = BitVec.ofInt 8 (16 * (d / 10) + d % 10) := by
  obtain ⟨n, rfl⟩ := Int.eq_ofNat_of_zero_le h0
  rw [dec2bcd_eq_ofNat (by omega), ← BitVec.ofInt_natCast]
  push_cast
  rfl

theorem exec_dec2bcd {d : Int} (h : 0 ≤ d ∧ d ≤ 99) (s : State) :
    exec (.dec2bcd d) s = .next (s.finish (.ok (.byte (dec2bcd d)))) := if_pos (decide_eq_true h)

/-- Settles O8. -/
theorem dec2bcdPacksTwoDigits : Obligations.Dec2bcdPacksTwoDigits := by
  unfold Obligations.Dec2bcdPacksTwoDigits
  refine fun s d => ⟨rfl, fun h0 h99 => ?_, fun hout => if_neg (by simpa [dec2bcdDomain] using hout)⟩
  rw [exec_dec2bcd ⟨h0, h99⟩, dec2bcd_eq_ofInt h0 h99, State.finish]

/-- A mask of the low `k` bits keeps a byte below `2 ^ k`. -/
theorem and_lowBits {b : Byte} {k : Nat} (hb : b.toNat < 2 ^ k) (hk : k ≤ 8) :
    b &&& BitVec.ofNat 8 (2 ^ k - 1) = b := by
  have hle : 2 ^ k ≤ 2 ^ 8 := Nat.pow_le_pow_right (by decide) hk
  apply BitVec.eq_of_toNat_eq
  rw [BitVec.toNat_and, BitVec.toNat_ofNat, Nat.mod_eq_of_lt (by omega), Nat.and_two_pow_sub_one_eq_mod,
    Nat.mod_eq_of_lt hb]

/-! ### The weekday -/

theorem wdayF_add_400 (d m y : Int) : wdayF d m (y + 400) = wdayF d m y := by
  simp only [wdayF]
  split <;> omega

/-- Settles O12: 2000 is five times the period. -/
theorem weekdayDoesNotDependOnTheCentury : Obligations.WeekdayDoesNotDependOnTheCentury := by
  unfold Obligations.WeekdayDoesNotDependOnTheCentury
  refine ⟨wdayF_add_400, fun d m y => ?_⟩
  calc wdayF d m (2000 + y) = wdayF d m (y + 400 + 400 + 400 + 400 + 400) := by congr 1; omega
    _ = wdayF d m y := by simp only [wdayF_add_400]

/-- Settles O10. -/
theorem wdayGivesTheWeekday : Obligations.WdayGivesTheWeekday := by
  unfold Obligations.WdayGivesTheWeekday
  exact fun s date month year4 =>
    ⟨rfl, fun hin => if_pos (decide_eq_true hin), fun hout => if_neg (by simpa [wdayDomain] using hout)⟩

/-- A later day of the same month. -/
theorem wdayF_succ_date (d m y : Int) : wdayF (d + 1) m y = (wdayF d m y + 1) % 7 := by
  simp only [wdayF]
  omega

/-- The first of January after the last of December. -/
theorem wdayF_newYear (y : Int) : wdayF 1 1 (y + 1) = (wdayF 31 12 y + 1) % 7 := by
  simp only [wdayF]
  omega

theorem leapYear_iff (y : Int) : leapYear y = true ↔ y % 4 = 0 ∧ (y % 100 ≠ 0 ∨ y % 400 = 0) := by simp [leapYear]

/-- The first of March after the last of February. Here the year of the formula changes, and its quotients by 4, 100 and
400 together grow by one just when the year is a leap year. -/
theorem wdayF_march (y : Int) : wdayF 1 3 y = (wdayF (daysIn 2 y) 2 y + 1) % 7 := by
  have hquotients : y / 4 - y / 100 + y / 400 =
      (y - 1) / 4 - (y - 1) / 100 + (y - 1) / 400 + if leapYear y then 1 else 0 := by
    have h4 : (y - 1) / 4 = y / 4 - if y % 4 = 0 then 1 else 0 := by split <;> omega
    have h100 : (y - 1) / 100 = y / 100 - if y % 100 = 0 then 1 else 0 := by split <;> omega
    have h400 : (y - 1) / 400 = y / 400 - if y % 400 = 0 then 1 else 0 := by split <;> omega
    simp only [h4, h100, h400, leapYear_iff]
    split_ifs <;> omega
  have hdays : daysIn 2 y = 28 + if leapYear y then 1 else 0 := by
    simp only [daysIn]
    split_ifs <;> rfl
  simp only [wdayF, hdays]
  norm_num
  omega

/-- The first of a month after the last of the month before. -/
theorem wdayF_nextMonth {m : Int} (hm : 1 ≤ m) (hm' : m < 12) (y : Int) :
    wdayF 1 (m + 1) y = (wdayF (daysIn m y) m y + 1) % 7 := by
  by_cases hfeb : m = 2
  · subst hfeb
    exact wdayF_march y
  · have hdays : daysIn m y = if m = 4 ∨ m = 6 ∨ m = 9 ∨ m = 11 then 30 else 31 := by simp [daysIn, hfeb]
    rw [hdays]
    simp only [wdayF]
    interval_cases m <;> omega

/-- Settles O11: within a month, from month to month, and over the new year. -/
theorem weekdayFollowsTheGregorianCalendar : Obligations.WeekdayFollowsTheGregorianCalendar := by
  unfold Obligations.WeekdayFollowsTheGregorianCalendar
  refine ⟨by decide, fun d m y _ hm hm' _ hd => ?_⟩
  unfold nextDay
  split
  · exact wdayF_succ_date d m y
  · next hlast =>
    obtain rfl : d = daysIn m y := by omega
    split
    · next hlt => exact wdayF_nextMonth hm hlt y
    · next hge =>
      obtain rfl : m = 12 := by omega
      exact wdayF_newYear y

end Sys2Proof.Machine
end

section
/-! The trim offset (40_codec.md R87 to R89). -/

namespace Sys2Proof.Machine

theorem toNat_setWidth_seven (b : Byte) : (b.setWidth 7).toNat = b.toNat % 128 := BitVec.toNat_setWidth 7 b

theorem and_sevenBits (b : Byte) : b &&& 0x7F = (b.setWidth 7).setWidth 8 := by
  apply BitVec.eq_of_toNat_eq
  rw [BitVec.toNat_and, BitVec.toNat_setWidth_of_le (by decide), toNat_setWidth_seven]
  exact Nat.and_two_pow_sub_one_eq_mod b.toNat 7

/-- The source's "xor with 0x7F" on seven bits is their complement. -/
theorem toNat_xor_sevenBits (c : BitVec 7) : (c.setWidth 8 ^^^ 0x7F).toNat = 127 - c.toNat := by
  have hones : (0x7F : Byte) = (BitVec.allOnes 7).setWidth 8 := rfl
  have hnot : c.setWidth 8 ^^^ 0x7F = (~~~c).setWidth 8 := by rw [hones, ← BitVec.setWidth_xor, BitVec.xor_allOnes]
  rw [hnot, BitVec.toNat_setWidth_of_le (by decide), BitVec.toNat_not]

/-- 40_codec.md R88: the source's expression is the two's-complement reading. -/
theorem ofsDec_eq_toInt (b : Byte) : ofsDec b = (b.setWidth 7).toInt := by
  have hc := (b.setWidth 7).isLt
  simp only [ofsDec, and_sevenBits, toNat_xor_sevenBits, BitVec.toNat_setWidth_of_le (show 7 ≤ 8 by decide),
    BitVec.toInt_eq_toNat_cond]
  split <;> split <;> omega

/-- Settles O13. -/
theorem ofsdecReadsSevenSignedBits : Obligations.OfsdecReadsSevenSignedBits := by
  unfold Obligations.OfsdecReadsSevenSignedBits
  refine fun s b => ⟨rfl, rfl, ?_⟩
  rw [← ofsDec_eq_toInt]
  rfl

/-- 40_codec.md R89: the low seven bits of a number. -/
theorem ofsEnc_eq_emod (v : Int) : ofsEnc v = BitVec.ofInt 8 (v % 128) := by
  apply BitVec.eq_of_toNat_eq
  have hand : (ofsEnc v).toNat = (BitVec.ofInt 8 v).toNat % 128 := by
    rw [ofsEnc, BitVec.toNat_and]
    exact Nat.and_two_pow_sub_one_eq_mod _ 7
  rw [hand, BitVec.toNat_ofInt, BitVec.toNat_ofInt]
  omega

theorem ofsInRange_iff (v : Int) : ofsInRange v = true ↔ -62 ≤ v ∧ v ≤ 63 := by simp [ofsInRange]

theorem ofsDec_ofsEnc {v : Int} (hlo : -62 ≤ v) (hhi : v ≤ 63) : ofsDec (ofsEnc v) = v := by
  rw [ofsDec_eq_toInt, BitVec.toInt_eq_toNat_cond, toNat_setWidth_seven, ofsEnc_eq_emod, BitVec.toNat_ofInt]
  split <;> omega

theorem exec_ofsenc (v : Int) (s : State) :
    exec (.ofsenc v) s = .next (s.finish (if ofsInRange v then .ok (.byte (ofsEnc v)) else .rejValue)) := rfl

/-- Settles O14. -/
theorem ofsencMasksOrRejects : Obligations.OfsencMasksOrRejects := by
  unfold Obligations.OfsencMasksOrRejects
  refine fun s v => ⟨rfl, fun hlo hhi => ?inRange, fun hout => ?outside⟩
  case inRange =>
    have hmod : v % 128 = if 0 ≤ v then v else v + 128 := by split <;> omega
    rw [exec_ofsenc, if_pos ((ofsInRange_iff v).mpr ⟨hlo, hhi⟩), ofsEnc_eq_emod, ← hmod]
    exact ⟨rfl, rfl, ofsEnc_eq_emod v ▸ ofsDec_ofsEnc hlo hhi⟩
  case outside =>
    rw [exec_ofsenc, if_neg (by rw [ofsInRange_iff]; omega), State.finish]

end Sys2Proof.Machine
end

section
/-! Validation of operands (41_datetime.md R102, 44_alarms.md R150): the first failing field ends it. -/

namespace Sys2Proof.Machine

theorem requiredField_eq (f : Field) (lo hi : Int) (v : Option Int) :
    requiredField f lo hi v = if failsRequired lo hi v then .error f else .ok (v.getD 0) := by
  cases v with
  | none => rfl
  | some v => simp [requiredField, failsRequired]

theorem optionalField_eq (f : Field) (lo hi : Int) (v : Option Int) :
    optionalField f lo hi v = if failsOptional lo hi v then .error f else .ok v := by
  cases v with
  | none => rfl
  | some v => simp [optionalField, failsOptional]

/-- The first failing field, or the result when none fails. -/
def checked {α : Type} (checks : List (Field × Bool)) (r : α) : Except Field α :=
  match firstFailing checks with
  | some f => .error f
  | none => .ok r

theorem checked_nil {α : Type} (r : α) : checked [] r = .ok r := rfl

theorem checked_cons {α : Type} (f : Field) (b : Bool) (checks : List (Field × Bool)) (r : α) :
    checked ((f, b) :: checks) r = if b then .error f else checked checks r := by
  cases b with
  | true => rfl
  | false => rfl

theorem checked_eq_error {α : Type} {checks : List (Field × Bool)} {r : α} {f : Field} :
    checked checks r = .error f ↔ firstFailing checks = some f := by
  unfold checked
  cases firstFailing checks with
  | none => simp
  | some g => simp

theorem checked_eq_ok {α : Type} {checks : List (Field × Bool)} {r : α} (h : firstFailing checks = none) :
    checked checks r = .ok r := by simp [checked, h]

/-- A field that fails ends the validation there. -/
theorem ite_error_bind {α β : Type} (b : Bool) (f : Field) (v : α) (k : α → Except Field β) :
    ((if b then .error f else .ok v) >>= k) = if b then .error f else k v := by
  cases b with
  | true => rfl
  | false => rfl

/-- DTVALID tests the fields in the order of the rule (41_datetime.md R102, decision D12). -/
theorem dtValid_eq_checked (se mi h d mo y wd : Option Int) :
    dtValid se mi h d mo y wd = checked (datetimeChecks se mi h d mo y wd)
      ({ year := y.getD 0, month := mo.getD 0, date := d.getD 0, weekday := 0, hours := h.getD 0,
         minutes := mi.getD 0, seconds := se.getD 0 }, wd) := by
  simp only [dtValid, requiredField_eq, optionalField_eq, ite_error_bind, datetimeChecks, checked_cons, checked_nil]
  rfl

/-- A required field that does not fail is present. -/
theorem eq_some_of_not_failsRequired {lo hi : Int} {v : Option Int} (h : failsRequired lo hi v = false) :
    v = some (v.getD 0) := by
  cases v with
  | none => cases h
  | some v => rfl

/-- No field fails. -/
theorem firstFailing_eq_none {checks : List (Field × Bool)} (h : firstFailing checks = none) :
    ∀ c ∈ checks, c.2 = false := by simpa [firstFailing] using h

/-- Settles O26: the validation is a list of checks, gone through in order. -/
theorem datetimeIsValidatedInOrder : Obligations.DatetimeIsValidatedInOrder := by
  unfold Obligations.DatetimeIsValidatedInOrder
  constructor
  · intro se mi h d mo y wd f
    rw [dtValid_eq_checked]
    exact checked_eq_error
  · intro se mi h d mo y wd hnone
    refine ⟨_, (dtValid_eq_checked se mi h d mo y wd).trans (checked_eq_ok hnone), ?_⟩
    have hall := firstFailing_eq_none hnone
    simp only [datetimeChecks, List.forall_mem_cons] at hall
    obtain ⟨hse, hmi, hh, hd, hmo, hy, -⟩ := hall
    exact ⟨eq_some_of_not_failsRequired hse, eq_some_of_not_failsRequired hmi, eq_some_of_not_failsRequired hh,
      eq_some_of_not_failsRequired hd, eq_some_of_not_failsRequired hmo, eq_some_of_not_failsRequired hy⟩

/-! ### Alarm operands -/

/-- ALMTIME tests minutes before hours (44_alarms.md R150, decision D12). -/
theorem almTime_eq_checked (hours minutes : Option Int) :
    almTime hours minutes = checked [(.minutes, failsOptional 0 59 minutes), (.hours, failsOptional 0 23 hours)]
      (dec2bcd (minutes.getD 0) &&& 0x7F, dec2bcd (hours.getD 0) &&& 0x3F) := by
  simp only [almTime, optionalField_eq, ite_error_bind, checked_cons, checked_nil]
  rfl

/-- An optional field from 0 that does not fail counts as a number in its range, 0 when absent. -/
theorem getD_mem_of_not_failsOptional {hi : Int} (hhi : 0 ≤ hi) {v : Option Int} (h : failsOptional 0 hi v = false) :
    0 ≤ v.getD 0 ∧ v.getD 0 ≤ hi := by
  cases v with
  | none => exact ⟨le_rfl, hhi⟩
  | some v => simpa [failsOptional] using h

/-- The mask of the minute byte takes nothing away. -/
theorem minuteByte_eq {n : Int} (h0 : 0 ≤ n) (h59 : n ≤ 59) :
    dec2bcd n &&& 0x7F = BitVec.ofInt 8 (16 * (n / 10) + n % 10) := by
  obtain ⟨k, rfl⟩ := Int.eq_ofNat_of_zero_le h0
  rw [← dec2bcd_eq_ofInt h0 (by omega)]
  exact and_lowBits (k := 7) (by rw [toNat_dec2bcd (by omega)]; omega) (by decide)

/-- The mask of the hour byte takes nothing away. -/
theorem hourByte_eq {n : Int} (h0 : 0 ≤ n) (h23 : n ≤ 23) :
    dec2bcd n &&& 0x3F = BitVec.ofInt 8 (16 * (n / 10) + n % 10) := by
  obtain ⟨k, rfl⟩ := Int.eq_ofNat_of_zero_le h0
  rw [← dec2bcd_eq_ofInt h0 (by omega)]
  exact and_lowBits (k := 6) (by rw [toNat_dec2bcd (by omega)]; omega) (by decide)

/-- Settles O35. -/
theorem alarmTimeIsValidatedAndEncoded : Obligations.AlarmTimeIsValidatedAndEncoded := by
  unfold Obligations.AlarmTimeIsValidatedAndEncoded
  intro hours minutes
  rw [almTime_eq_checked, checked_cons, checked_cons, checked_nil]
  cases hm : failsOptional 0 59 minutes with
  | true => rfl
  | false =>
    cases hh : failsOptional 0 23 hours with
    | true => rfl
    | false =>
      obtain ⟨hm0, hm59⟩ := getD_mem_of_not_failsOptional (by decide) hm
      obtain ⟨hh0, hh23⟩ := getD_mem_of_not_failsOptional (by decide) hh
      rw [minuteByte_eq hm0 hm59, hourByte_eq hh0 hh23]

end Sys2Proof.Machine
end

section
/-! The field functions of the composer, bit by bit (43_composer.md section 1 and R134), and the tables of the result
port and of reset. -/

namespace Sys2Proof.Machine

/-! ### Fields -/

theorem getLsbD_fset (r m : Byte) (k : Nat) : (fset r m).getLsbD k = (r.getLsbD k || m.getLsbD k) :=
  BitVec.getLsbD_or

theorem getLsbD_fclr (r m : Byte) {k : Nat} (hk : k < 8) : (fclr r m).getLsbD k = (r.getLsbD k && !m.getLsbD k) := by
  simp [fclr, hk]

theorem getLsbD_fmux (r m f : Byte) {k : Nat} (hk : k < 8) :
    (fmux r m f).getLsbD k = if m.getLsbD k then f.getLsbD k else r.getLsbD k := by
  rw [fmux, BitVec.getLsbD_or, BitVec.getLsbD_and, BitVec.getLsbD_and, BitVec.getLsbD_not, decide_eq_true hk]
  cases m.getLsbD k <;> simp

/-- Replacing by all ones sets the field. -/
theorem fset_eq_fmux (r m : Byte) : fset r m = fmux r m 0xFF := by
  refine BitVec.eq_of_getLsbD_eq fun k hk => ?_
  have hones : (0xFF : Byte).getLsbD k = true := by
    rw [show (0xFF : Byte) = BitVec.allOnes 8 from rfl, BitVec.getLsbD_allOnes, decide_eq_true hk]
  rw [getLsbD_fset, getLsbD_fmux r m _ hk, hones]
  cases m.getLsbD k <;> simp

/-- Replacing by all zeros clears the field. -/
theorem fclr_eq_fmux (r m : Byte) : fclr r m = fmux r m 0x00 := by
  refine BitVec.eq_of_getLsbD_eq fun k hk => ?_
  rw [getLsbD_fclr r m hk, getLsbD_fmux r m _ hk]
  cases m.getLsbD k <;> simp

/-- The field of a replaced byte. -/
theorem fmux_and (r m f : Byte) : fmux r m f &&& m = f &&& m := by
  refine BitVec.eq_of_getLsbD_eq fun k hk => ?_
  rw [BitVec.getLsbD_and, getLsbD_fmux r m f hk, BitVec.getLsbD_and]
  cases m.getLsbD k <;> simp

/-- The other bits of a replaced byte. -/
theorem fmux_and_not (r m f : Byte) : fmux r m f &&& ~~~m = r &&& ~~~m := by
  refine BitVec.eq_of_getLsbD_eq fun k hk => ?_
  rw [BitVec.getLsbD_and, getLsbD_fmux r m f hk, BitVec.getLsbD_and, BitVec.getLsbD_not]
  cases m.getLsbD k <;> simp [hk]

/-- The test sees a common set bit. -/
theorem ftst_iff_exists (r m : Byte) : ftst r m = true ↔ ∃ k < 8, r.getLsbD k ∧ m.getLsbD k := by
  rw [ftst_iff]
  constructor
  · intro h
    by_contra hnone
    refine h (BitVec.eq_of_getLsbD_eq fun k hk => ?_)
    simpa using fun hr hm => hnone ⟨k, hk, hr, hm⟩
  · rintro ⟨k, -, hr, hm⟩ hzero
    have hbit : (r &&& m).getLsbD k = true := by simp [hr, hm]
    simp [hzero] at hbit

/-- Settles O32: setting and clearing are replacing, and a replaced byte is known on and off the field. -/
theorem fieldFunctionsPassOtherBitsThrough : Obligations.FieldFunctionsPassOtherBitsThrough := by
  unfold Obligations.FieldFunctionsPassOtherBitsThrough
  exact fun r m f => ⟨fset_eq_fmux r m, fclr_eq_fmux r m, ftst_iff_exists r m, fmux_and r m f,
    fset_eq_fmux r m ▸ fmux_and_not r m 0xFF, fclr_eq_fmux r m ▸ fmux_and_not r m 0x00, fmux_and_not r m f⟩

/-! ### CTPLACE -/

/-- The number of mask positions from `pos` up to, but not including, `k`. -/
def maskBelow (mask : Byte) (pos k : Nat) : Nat := ((List.range' pos (k - pos)).filter fun j => mask.getLsbD j).length

theorem maskBelow_self (mask : Byte) (k : Nat) : maskBelow mask k k = 0 := by simp [maskBelow]

theorem maskBelow_zero (mask : Byte) (k : Nat) :
    maskBelow mask 0 k = ((List.range k).filter fun j => mask.getLsbD j).length := by
  rw [maskBelow, Nat.sub_zero, List.range_eq_range']

theorem maskBelow_of_lt (mask : Byte) {pos k : Nat} (h : pos < k) :
    maskBelow mask pos k = (if mask.getLsbD pos then 1 else 0) + maskBelow mask (pos + 1) k := by
  obtain ⟨n, rfl⟩ : ∃ n, k = pos + 1 + n := ⟨k - (pos + 1), by omega⟩
  have hlen : pos + 1 + n - pos = n + 1 := by omega
  simp only [maskBelow, hlen, List.range'_succ, Nat.add_sub_cancel_left, List.filter_cons]
  split <;> simp [Nat.add_comm]

/-- A position below the start gets no bit. -/
theorem depositBits_below (mask code : Byte) {fuel pos k : Nat} (h : k < pos) :
    (depositBits mask fuel pos code).getLsbD k = false := by
  induction fuel generalizing pos code with
  | zero => simp [depositBits]
  | succ fuel ih =>
    unfold depositBits
    split
    · simp [ih _ (Nat.lt_succ_of_lt h), h]
    · exact ih _ (Nat.lt_succ_of_lt h)

/-- The code's lowest bit, placed at `pos`. -/
theorem getLsbD_lowBit_shiftLeft (code : Byte) {pos k : Nat} (hk : k < 8) :
    ((code &&& 1) <<< pos).getLsbD k = (decide (k = pos) && code.getLsbD 0) := by
  have hone : (1 : Byte).getLsbD (k - pos) = decide (k - pos = 0) := by simp [BitVec.getLsbD_one]
  rw [BitVec.getLsbD_shiftLeft, BitVec.getLsbD_and, hone, decide_eq_true hk]
  obtain hlt | rfl | hgt := Nat.lt_trichotomy k pos
  · simp [hlt, Nat.ne_of_lt hlt]
  · simp
  · simp [Nat.ne_of_gt hgt, Nat.sub_ne_zero_of_lt hgt]

/-- A position of the mask gets the code bit whose number is the count of mask positions before it. -/
theorem getLsbD_depositBits (mask code : Byte) {fuel pos k : Nat} (hpos : pos ≤ k) (hk : k < pos + fuel) (hk8 : k < 8) :
    (depositBits mask fuel pos code).getLsbD k = (mask.getLsbD k && code.getLsbD (maskBelow mask pos k)) := by
  induction fuel generalizing pos code with
  | zero => omega
  | succ fuel ih =>
    unfold depositBits
    obtain rfl | hlt := Nat.eq_or_lt_of_le hpos
    · rw [maskBelow_self]
      split
      · next hm =>
        rw [BitVec.getLsbD_or, depositBits_below mask _ (Nat.lt_succ_self pos), getLsbD_lowBit_shiftLeft _ hk8, hm]
        simp
      · next hm =>
        rw [depositBits_below mask _ (Nat.lt_succ_self pos), Bool.eq_false_iff.mpr hm, Bool.false_and]
    · rw [maskBelow_of_lt mask hlt]
      split
      · rw [BitVec.getLsbD_or, ih (code >>> 1) hlt (by omega), getLsbD_lowBit_shiftLeft _ hk8,
          decide_eq_false (Nat.ne_of_gt hlt), BitVec.getLsbD_ushiftRight, Bool.false_and, Bool.false_or]
      · rw [ih code hlt (by omega), Nat.zero_add]

theorem getLsbD_ctPlace (c : Cfg) (code : ModeCode) {k : Nat} (hk : k < 8) :
    (ctPlace c code).getLsbD k =
      (c.ctMask.getLsbD k && code.getLsbD ((List.range k).filter fun j => c.ctMask.getLsbD j).length) := by
  have hcount := List.length_filter_le (fun j => c.ctMask.getLsbD j) (List.range k)
  rw [List.length_range] at hcount
  rw [ctPlace, getLsbD_depositBits _ _ (Nat.zero_le k) (by omega) hk, maskBelow_zero, BitVec.getLsbD_setWidth,
    decide_eq_true (by omega), Bool.true_and]

/-- Settles O33: off the mask every bit of CTPLACE is 0. -/
theorem ctplacePutsTheCodeOnTheMask : Obligations.CtplacePutsTheCodeOnTheMask := by
  unfold Obligations.CtplacePutsTheCodeOnTheMask
  refine ⟨fun c code k hk => getLsbD_ctPlace c code hk, fun c code => ?offMask, by decide⟩
  case offMask =>
    refine BitVec.eq_of_getLsbD_eq fun k hk => ?_
    rw [BitVec.getLsbD_and, getLsbD_ctPlace c code hk, BitVec.getLsbD_not]
    cases c.ctMask.getLsbD k <;> simp

/-! ### The result port, and reset -/

/-- Settles O45. -/
theorem resultPortShowsStatusAndFieldCodes : Obligations.ResultPortShowsStatusAndFieldCodes := by
  unfold Obligations.ResultPortShowsStatusAndFieldCodes
  refine ⟨fun v => ⟨rfl, rfl⟩, rfl, rfl, rfl, rfl, fun f => ⟨rfl, rfl, ?codes⟩, fun o => ?errors⟩
  case codes => cases f <;> decide
  case errors => cases o <;> simp [CmdOutcome.isError, CmdOutcome.status]

theorem getX_resetWith (c : Cfg) (i : RegIndex) : (State.resetWith c).getX i = c.mirrorReset := by
  simp [State.getX, State.resetWith, Vector.get_eq_getElem]

/-- Settles O17. -/
theorem resetStateIsTheTable : Obligations.ResetStateIsTheTable := by
  unfold Obligations.ResetStateIsTheTable
  exact ⟨fun c => ⟨getX_resetWith c, rfl, rfl, rfl, rfl, rfl, rfl⟩, rfl, rfl, by decide⟩

/-- Settles O18. -/
theorem blockResetLeavesTheDevice : Obligations.BlockResetLeavesTheDevice := by
  unfold Obligations.BlockResetLeavesTheDevice
  exact fun s => ⟨getX_resetWith s.cfg, rfl, rfl, rfl, rfl, rfl, rfl, rfl, rfl⟩

end Sys2Proof.Machine
end

section
/-! Which mirror bytes a plan uses (10_state.md R23). A plan is checked from its start to its end: a byte is used only
where the plan itself has loaded or assigned it before, `x[10]` excepted. Two runs that agree on the bytes known at a
point of the plan then go on alike. -/

namespace Sys2Proof.Machine

/-- Every mirror byte the plan uses is among `known`, or loaded or assigned before its use. -/
def Plan.defined : Plan → List RegIndex → Bool
  | .stop is _, known => is.all (known.contains ·)
  | .ifInited yes no, known => yes.defined known && no.defined known
  | .ifStatus bad good, known => known.contains 15 && bad.defined known && good.defined known
  | .byShape two one, known => two.defined known && one.defined known
  | .begin _ next, known => next.defined known
  | .sterr _ next, known => next.defined known
  | .put i _ next, known => next.defined (i :: known)
  | .modify i _ next, known => known.contains i && next.defined known
  | .read sp next, known => next.defined (sp.indices ++ known)
  | .write sp next, known => sp.indices.all (known.contains ·) && next.defined known

/-- 10_state.md R23: `x[10]` is the one byte a command may use as it finds it. -/
theorem planOf_defined (i : Instr) : (planOf i).defined [10] = true := by
  cases i with
  | wrdt se mi h d mo y wd =>
    simp only [planOf]
    cases dtValid se mi h d mo y wd with
    | error f => rfl
    | ok p => rfl
  | ofsset v =>
    simp only [planOf]
    cases ofsInRange v with
    | false => rfl
    | true => rfl
  | dalmset hours minutes =>
    simp only [planOf]
    cases almTime hours minutes with
    | error f => rfl
    | ok p => rfl
  | walmset hours minutes wdmask =>
    simp only [planOf]
    cases almTime hours minutes with
    | error f => rfl
    | ok p =>
      by_cases hm : wdmask = 0
      · simp only [Plan.putMask, if_pos hm]
        rfl
      · simp only [Plan.putMask, if_neg hm]
        rfl
  | _ => rfl

/-! ### Two states that agree on the bytes known -/

/-- The two states differ at most in the mirror, and there not at `known`. -/
def AgreeOn (known : List RegIndex) (s s' : State) : Prop :=
  ∃ y, s = { s' with x := y } ∧ ∀ j ∈ known, s'.getX j = s.getX j

theorem agreeOn_iff_sameButMirror (s s' : State) : AgreeOn [10] s s' ↔ sameButMirror s s' := by
  constructor
  · rintro ⟨y, rfl, hx⟩
    exact ⟨rfl, hx 10 (by simp)⟩
  · rintro ⟨hsame, hx⟩
    exact ⟨s.x, hsame.symm, by simpa using hx⟩

section Agreement

variable {known : List RegIndex} {s s' : State}

theorem AgreeOn.mono {fewer : List RegIndex} (h : AgreeOn known s s') (hk : ∀ j ∈ fewer, j ∈ known) :
    AgreeOn fewer s s' := by
  obtain ⟨y, hs, hx⟩ := h
  exact ⟨y, hs, fun j hj => hx j (hk j hj)⟩

theorem AgreeOn.finish (h : AgreeOn known s s') (o : CmdOutcome) : AgreeOn known (s.finish o) (s'.finish o) := by
  obtain ⟨y, rfl, hx⟩ := h
  exact ⟨y, rfl, hx⟩

theorem AgreeOn.hang (h : AgreeOn known s s') : AgreeOn known s.hang s'.hang := by
  obtain ⟨y, rfl, hx⟩ := h
  exact ⟨y, rfl, hx⟩

theorem AgreeOn.beginInit (h : AgreeOn known s s') (addr : Option SlaveAddr) :
    AgreeOn known (s.beginInit addr) (s'.beginInit addr) := by
  obtain ⟨y, rfl, hx⟩ := h
  exact ⟨y, rfl, hx⟩

theorem AgreeOn.setSterr (h : AgreeOn known s s') (v : Bool) : AgreeOn known (s.setSterr v) (s'.setSterr v) := by
  obtain ⟨y, rfl, hx⟩ := h
  exact ⟨y, rfl, hx⟩

theorem AgreeOn.issue (h : AgreeOn known s s') (kd : TransferKind) (sp : Span) (bs : List Byte) (m : Memory) :
    AgreeOn known (s.issue kd sp bs m) (s'.issue kd sp bs m) := by
  obtain ⟨y, rfl, hx⟩ := h
  exact ⟨y, rfl, hx⟩

theorem AgreeOn.hostAdvance (h : AgreeOn known s s') : AgreeOn known s.hostAdvance s'.hostAdvance := by
  obtain ⟨y, rfl, hx⟩ := h
  obtain hh | hh := Bool.eq_false_or_eq_true s'.hung
  · rw [hostAdvance_of_hung (s := s') hh, hostAdvance_of_hung (s := { s' with x := y }) hh]
    exact ⟨y, rfl, hx⟩
  · rw [hostAdvance_of_not_hung (s := s') hh, hostAdvance_of_not_hung (s := { s' with x := y }) hh]
    exact ⟨y, rfl, hx⟩

/-- A byte assigned in both is known from there on. -/
theorem AgreeOn.setX (h : AgreeOn known s s') (i : RegIndex) (v : Byte) :
    AgreeOn (i :: known) (s.setX i v) (s'.setX i v) := by
  obtain ⟨y, rfl, hx⟩ := h
  refine ⟨y.set i v, rfl, fun j hj => ?_⟩
  rw [State.getX_setX, State.getX_setX]
  split
  · rfl
  · next hne => exact hx j ((List.mem_cons.mp hj).resolve_left hne)

/-- The bytes loaded in both are known from there on. -/
theorem AgreeOn.setXs (h : AgreeOn known s s') {is : List RegIndex} {bs : List Byte} (hlen : bs.length = is.length) :
    AgreeOn (is ++ known) (s.setXs is bs) (s'.setXs is bs) := by
  induction is generalizing known s s' bs with
  | nil => simpa using h
  | cons i is ih =>
    cases bs with
    | nil => simp at hlen
    | cons b bs => exact (ih (h.setX i b) (by simpa using hlen)).mono (by simp; tauto)

theorem AgreeOn.getXs (h : AgreeOn known s s') {is : List RegIndex} (his : is.all (known.contains ·) = true) :
    s'.getXs is = s.getXs is := by
  obtain ⟨-, -, hx⟩ := h
  simp only [List.all_eq_true, List.contains_iff_mem] at his
  exact List.map_congr_left fun j hj => hx j (his j hj)

/-- Agreement on the mirror bytes known is kept by an answered, a failing and a hanging read. -/
theorem AgreeOn.memRead (h : AgreeOn known s s') (sp : Span) {k : State → State}
    (hk : ∀ t t', AgreeOn (sp.indices ++ known) t t' → AgreeOn known (k t) (k t')) :
    AgreeOn known (s.memRead sp k) (s'.memRead sp k) := by
  obtain ⟨y, rfl, hx⟩ := h
  have h : AgreeOn known { s' with x := y } s' := ⟨y, rfl, hx⟩
  obtain ⟨he, hr⟩ | ⟨n, he, hr⟩ | ⟨n, he, hr⟩ := s'.memRead_cases sp k
  · rw [hr, State.memRead_done { s' with x := y } sp k he]
    exact hk _ _ ((h.issue .read sp _ _).setXs (Memory.length_readAll _ _ _))
  · rw [hr, State.memRead_failed { s' with x := y } sp k he]
    exact (h.issue .read sp _ _).finish .errBus
  · rw [hr, State.memRead_never { s' with x := y } sp k he]
    exact (h.issue .read sp _ _).hang

/-- The same for a write of bytes known. -/
theorem AgreeOn.memWrite (h : AgreeOn known s s') {sp : Span} (hsp : sp.indices.all (known.contains ·) = true)
    {k : State → State} (hk : ∀ t t', AgreeOn known t t' → AgreeOn known (k t) (k t')) :
    AgreeOn known (s.memWrite sp k) (s'.memWrite sp k) := by
  have hbytes := h.getXs hsp
  obtain ⟨y, rfl, hx⟩ := h
  have h : AgreeOn known { s' with x := y } s' := ⟨y, rfl, hx⟩
  obtain ⟨he, hr⟩ | ⟨n, he, hr⟩ | ⟨n, he, hr⟩ := s'.memWrite_cases sp k
  · rw [hr, State.memWrite_done { s' with x := y } sp k he, hbytes]
    exact hk _ _ (h.issue .write sp _ _)
  · rw [hr, State.memWrite_failed { s' with x := y } sp k he, hbytes]
    exact (h.issue .write sp _ _).finish .errBus
  · rw [hr, State.memWrite_never { s' with x := y } sp k he, hbytes]
    exact (h.issue .write sp _ _).hang

/-- Two runs of a plan that agree on the bytes known at its start agree on them at its end. -/
theorem AgreeOn.run {p : Plan} (h : AgreeOn known s s') (hp : p.defined known = true) :
    AgreeOn known (p.run s) (p.run s') := by
  induction p generalizing known s s' with
  | stop is o =>
    simp only [Plan.run, h.getXs hp]
    exact h.finish _
  | ifInited yes no ihy ihn =>
    simp only [Plan.defined, Bool.and_eq_true] at hp
    obtain ⟨hyes, hno⟩ := hp
    have hsame : s.inited = s'.inited := by obtain ⟨y, rfl, -⟩ := h; rfl
    simp only [Plan.run, hsame]
    split
    · exact ihy h hyes
    · exact ihn h hno
  | ifStatus bad good ihb ihg =>
    simp only [Plan.defined, Bool.and_eq_true, List.contains_iff_mem] at hp
    obtain ⟨⟨hmem, hbad⟩, hgood⟩ := hp
    have hsame : s.cfg = s'.cfg ∧ s.getX 15 = s'.getX 15 := by
      obtain ⟨y, rfl, hx⟩ := h
      exact ⟨rfl, (hx 15 hmem).symm⟩
    simp only [Plan.run, hsame]
    split
    · exact ihb h hbad
    · exact ihg h hgood
  | byShape two one iht iho =>
    simp only [Plan.defined, Bool.and_eq_true] at hp
    obtain ⟨htwo, hone⟩ := hp
    have hsame : s.cfg = s'.cfg := by obtain ⟨y, rfl, -⟩ := h; rfl
    simp only [Plan.run, hsame]
    split
    · exact iht h htwo
    · exact iho h hone
  | begin addr next ih => exact ih (h.beginInit addr) hp
  | sterr v next ih => exact ih (h.setSterr v) hp
  | put i v next ih =>
    have hsame : s.cfg = s'.cfg := by obtain ⟨y, rfl, -⟩ := h; rfl
    simp only [Plan.run, hsame]
    exact (ih (h.setX i _) hp).mono fun j hj => List.mem_cons_of_mem i hj
  | modify i f next ih =>
    simp only [Plan.defined, Bool.and_eq_true, List.contains_iff_mem] at hp
    obtain ⟨hmem, hnext⟩ := hp
    have hsame : s.cfg = s'.cfg ∧ s.getX i = s'.getX i := by
      obtain ⟨y, rfl, hx⟩ := h
      exact ⟨rfl, (hx i hmem).symm⟩
    simp only [Plan.run, hsame]
    exact ih ((h.setX i _).mono fun j hj => List.mem_cons_of_mem i hj) hnext
  | read sp next ih =>
    exact h.memRead sp fun t t' ht => (ih ht hp).mono fun j hj => List.mem_append_right _ hj
  | write sp next ih =>
    simp only [Plan.defined, Bool.and_eq_true] at hp
    obtain ⟨hsp, hnext⟩ := hp
    exact h.memWrite hsp fun t t' ht => ih ht hnext

/-! ### Commands and steps -/

theorem exec_answersAlike (h : AgreeOn [10] s s') (i : Instr) : answersAlike (exec i s) (exec i s') := by
  cases hd : i.inDomain with
  | true =>
    rw [exec_eq_run hd, exec_eq_run hd]
    exact (agreeOn_iff_sameButMirror _ _).mp (h.run (planOf_defined i))
  | false =>
    obtain ⟨r, hr⟩ := exec_refused hd
    rw [hr s, hr s']
    exact rfl

theorem step_answersAlike (h : AgreeOn [10] s s') : answersAlike (step s) (step s') := by
  have hsame : s'.hung = s.hung ∧ s'.fetch = s.fetch := by
    obtain ⟨y, rfl, -⟩ := h
    exact ⟨rfl, rfl⟩
  obtain ⟨hhung, hfetch⟩ := hsame
  cases hh : s.hung with
  | true =>
    rw [step_of_hung hh, step_of_hung (hhung.trans hh)]
    exact rfl
  | false =>
    have hh' := hhung.trans hh
    cases hf : s.fetch with
    | none =>
      rw [step_of_no_command hh hf, step_of_no_command hh' (hfetch.trans hf)]
      exact (agreeOn_iff_sameButMirror _ _).mp h
    | some p =>
      have hf' := hfetch.trans hf
      cases hd : decode p with
      | error e =>
        rw [step_of_error hh hf hd, step_of_error hh' hf' hd]
        exact (agreeOn_iff_sameButMirror _ _).mp (h.finish .errOp).hostAdvance
      | ok i =>
        cases hi : i.inDomain with
        | true =>
          rw [step_of_next hh hf hd (exec_eq_run hi s), step_of_next hh' hf' hd (exec_eq_run hi s')]
          exact (agreeOn_iff_sameButMirror _ _).mp (h.run (planOf_defined i)).hostAdvance
        | false =>
          obtain ⟨r, hr⟩ := exec_refused hi
          rw [step_of_refused hh hf hd (hr s), step_of_refused hh' hf' hd (hr s')]
          exact rfl

end Agreement

/-- Settles O54: every command's plan is defined from `x[10]` alone, so `AgreeOn.run` carries the agreement through it. -/
theorem onlyWeekdayMaskOfTheMirrorIsEverUsed : Obligations.OnlyWeekdayMaskOfTheMirrorIsEverUsed := by
  unfold Obligations.OnlyWeekdayMaskOfTheMirrorIsEverUsed
  intro s s' h
  have hagree := (agreeOn_iff_sameButMirror s s').mpr h
  exact ⟨exec_answersAlike hagree, step_answersAlike hagree⟩

end Sys2Proof.Machine
end

section
/-! How a command ends and what it transfers. A plan is held against a row of transfers: it issues them in order, and
each of its own ends stands at an allowed place of the row. `Plan.Follows.ran` says once what a run of such a plan can
have done: all its transfers were answered and it stopped, or the last one failed, or the last one never returned. -/

namespace Sys2Proof.Machine

/-! ### A load leaves all but the mirror -/

section Load

variable (s : State) (is : List RegIndex) (bs : List Byte)

@[simp] theorem State.setXs_cfg : (s.setXs is bs).cfg = s.cfg := by rw [State.setXs_eq]
@[simp] theorem State.setXs_scratch : (s.setXs is bs).scratch = s.scratch := by rw [State.setXs_eq]
@[simp] theorem State.setXs_sa : (s.setXs is bs).sa = s.sa := by rw [State.setXs_eq]
@[simp] theorem State.setXs_inited : (s.setXs is bs).inited = s.inited := by rw [State.setXs_eq]
@[simp] theorem State.setXs_sterr : (s.setXs is bs).sterr = s.sterr := by rw [State.setXs_eq]
@[simp] theorem State.setXs_hung : (s.setXs is bs).hung = s.hung := by rw [State.setXs_eq]
@[simp] theorem State.setXs_mem : (s.setXs is bs).mem = s.mem := by rw [State.setXs_eq]
@[simp] theorem State.setXs_cp : (s.setXs is bs).cp = s.cp := by rw [State.setXs_eq]
@[simp] theorem State.setXs_program : (s.setXs is bs).program = s.program := by rw [State.setXs_eq]
@[simp] theorem State.setXs_env : (s.setXs is bs).env = s.env := by rw [State.setXs_eq]
@[simp] theorem State.setXs_outcomes : (s.setXs is bs).outcomes = s.outcomes := by rw [State.setXs_eq]
@[simp] theorem State.setXs_upcoming (n : Nat) : (s.setXs is bs).upcoming n = s.upcoming n := by
  rw [State.setXs_eq]
  rfl

end Load

/-! ### One transfer -/

/-- The row entry of a transfer (20_memory.md R32). -/
def Transfer.row (r : Transfer) : TransferKind × Byte × Nat := (r.kind, r.wire, r.count)

/-- The row entry of a transfer of `sp`. -/
def Span.row (kd : TransferKind) (sp : Span) : TransferKind × Byte × Nat := (kd, sp.wire, sp.count)

/-- From `s` the transfer `r` has been issued, and no outcome has come of it yet: the state is `s'`. -/
structure Issued (s s' : State) (r : Transfer) : Prop where
  bus : s'.bus = s.bus ++ [r]
  env : s'.env = s.env.drop 1
  slave : r.slave = s.sa
  sa : s'.sa = s.sa
  hung : s'.hung = s.hung
  outcomes : s'.outcomes = s.outcomes
  upcoming : ∀ n, s'.upcoming n = s.upcoming (n + 1)

theorem State.issue_issued (s : State) (kd : TransferKind) (sp : Span) (bs : List Byte) (m : Memory) :
    Issued s (s.issue kd sp bs m) ⟨kd, s.sa, sp.wire, sp.count, bs⟩ := by constructor <;> simp

/-- An answered read has been issued, and has loaded the mirror. -/
theorem State.issue_setXs_issued (s : State) (kd : TransferKind) (sp : Span) (bs bs' : List Byte) (m : Memory) :
    Issued s ((s.issue kd sp bs m).setXs sp.indices bs') ⟨kd, s.sa, sp.wire, sp.count, bs⟩ := by
  constructor <;> simp

/-! ### The ways to end -/

/-- `t` is the end of a run from `s` that issued `n` transfers; an outcome the plan itself gave has `Q`. -/
inductive EndsAfter (Q : CmdOutcome → Prop) (s t : State) : Nat → Prop where
  /-- Every transfer was answered, and the command came to its own end. -/
  | stopped {n : Nat} {o : CmdOutcome} (allowed : Q o) (done : answered s n) (hung : t.hung = s.hung)
      (outcomes : t.outcomes = s.outcomes ++ [o]) : EndsAfter Q s t n
  /-- The last transfer failed (60_exceptions.md R174). -/
  | failed {k d : Nat} (done : answered s k) (last : (s.upcoming k).answer = .failed d) (hung : t.hung = s.hung)
      (outcomes : t.outcomes = s.outcomes ++ [.errBus]) : EndsAfter Q s t (k + 1)
  /-- The last transfer never returned (U6). -/
  | never {k d : Nat} (done : answered s k) (last : (s.upcoming k).answer = .never d) (hung : t.hung = true)
      (outcomes : t.outcomes = s.outcomes) : EndsAfter Q s t (k + 1)

theorem answered_zero (s : State) : answered s 0 := fun k hk => absurd hk (Nat.not_lt_zero k)

theorem answered_succ {s s' : State} {n : Nat} (h0 : (s.upcoming 0).answer = .done)
    (hup : ∀ k, s'.upcoming k = s.upcoming (k + 1)) (h : answered s' n) : answered s (n + 1) := by
  intro k hk
  cases k with
  | zero => exact h0
  | succ k => exact hup k ▸ h k (by omega)

/-- An answered transfer before the run. -/
theorem EndsAfter.cons {Q : CmdOutcome → Prop} {s s' t : State} {n : Nat} {r : Transfer} (hr : Issued s s' r)
    (h0 : (s.upcoming 0).answer = .done) (h : EndsAfter Q s' t n) : EndsAfter Q s t (n + 1) := by
  cases h with
  | stopped allowed done hung outcomes =>
    exact .stopped allowed (answered_succ h0 hr.upcoming done) (hung.trans hr.hung) (hr.outcomes ▸ outcomes)
  | failed done last hung outcomes =>
    exact .failed (answered_succ h0 hr.upcoming done) (hr.upcoming _ ▸ last) (hung.trans hr.hung)
      (hr.outcomes ▸ outcomes)
  | never done last hung outcomes =>
    exact .never (answered_succ h0 hr.upcoming done) (hr.upcoming _ ▸ last) hung (hr.outcomes ▸ outcomes)

/-- A change before the run of nothing that its end is told from. -/
theorem EndsAfter.of_eq {Q : CmdOutcome → Prop} {s s' t : State} {n : Nat} (h : EndsAfter Q s' t n)
    (hhung : s'.hung = s.hung) (hout : s'.outcomes = s.outcomes) (hup : ∀ n, s'.upcoming n = s.upcoming n) :
    EndsAfter Q s t n := by
  have hanswered : ∀ n, answered s' n → answered s n := fun n hn k hk => hup k ▸ hn k hk
  cases h with
  | stopped allowed done hung outcomes =>
    exact .stopped allowed (hanswered _ done) (hung.trans hhung) (hout ▸ outcomes)
  | failed done last hung outcomes =>
    exact .failed (hanswered _ done) (hup _ ▸ last) (hung.trans hhung) (hout ▸ outcomes)
  | never done last hung outcomes => exact .never (hanswered _ done) (hup _ ▸ last) hung (hout ▸ outcomes)

/-! ### A plan held against its row -/

/-- A condition on a plan's own end: what of the row has been issued, what is left of it, and the outcome. -/
abbrev EndCondition := List (TransferKind × Byte × Nat) → List (TransferKind × Byte × Nat) → CmdOutcome → Prop

/-- The plan, started with `inited` and the given shape when `past` has been issued, issues the transfers of `rest` in
order, and meets `C` where it ends. The slave address is chosen before the first transfer. -/
def Plan.Follows (shape : ClearShape) (C : EndCondition) :
    Plan → Bool → List (TransferKind × Byte × Nat) → List (TransferKind × Byte × Nat) → Prop
  | .stop _ o, _, past, rest => ∀ bs, C past rest (o bs)
  | .ifInited yes no, inited, past, rest =>
    if inited then yes.Follows shape C inited past rest else no.Follows shape C inited past rest
  | .ifStatus bad good, inited, past, rest =>
    bad.Follows shape C inited past rest ∧ good.Follows shape C inited past rest
  | .byShape two one, inited, past, rest =>
    match shape with
    | .twoOneByte => two.Follows shape C inited past rest
    | .oneTwoByte => one.Follows shape C inited past rest
  | .begin _ next, _, past, rest => past = [] ∧ next.Follows shape C true past rest
  | .sterr _ next, inited, past, rest => next.Follows shape C inited past rest
  | .put _ _ next, inited, past, rest => next.Follows shape C inited past rest
  | .modify _ _ next, inited, past, rest => next.Follows shape C inited past rest
  | .read _ _, _, _, [] => False
  | .read sp next, inited, past, r :: rest => r = sp.row .read ∧ next.Follows shape C inited (past ++ [r]) rest
  | .write _ _, _, _, [] => False
  | .write sp next, inited, past, r :: rest => r = sp.row .write ∧ next.Follows shape C inited (past ++ [r]) rest

/-- What a run from `s` to `t` that issued `ts` has done, when `past` had been issued and `rest` was left of the row. -/
structure Ran (C : EndCondition) (past rest : List (TransferKind × Byte × Nat)) (s t : State) (ts : List Transfer) :
    Prop where
  bus : t.bus = s.bus ++ ts
  env : t.env = s.env.drop ts.length
  slave : ∀ r ∈ ts, r.slave = t.sa
  sa : past ≠ [] → t.sa = s.sa
  ends : ∃ left, ts.map Transfer.row ++ left = rest ∧ EndsAfter (C (past ++ ts.map Transfer.row) left) s t ts.length

section Runs

variable {C : EndCondition} {past rest : List (TransferKind × Byte × Nat)} {s s' t : State} {r : Transfer}
  {ts : List Transfer}

/-- An answered transfer, then the rest of the run. -/
theorem Ran.cons (hr : Issued s s' r) (h0 : (s.upcoming 0).answer = .done) (h : Ran C (past ++ [r.row]) rest s' t ts) :
    Ran C past (r.row :: rest) s t (r :: ts) := by
  obtain ⟨left, hleft, hend⟩ := h.ends
  have hsa : t.sa = s.sa := (h.sa (by simp)).trans hr.sa
  refine ⟨?_, ?_, ?_, fun _ => hsa, left, ?_, ?_⟩
  · rw [h.bus, hr.bus, List.append_assoc, List.singleton_append]
  · rw [h.env, hr.env, List.drop_drop, Nat.add_comm, List.length_cons]
  · intro q hq
    obtain rfl | hq := List.mem_cons.mp hq
    · exact hr.slave.trans hsa.symm
    · exact h.slave q hq
  · rw [List.map_cons, List.cons_append, hleft]
  · simpa using hend.cons hr h0

/-- A transfer that failed ends the run. -/
theorem Ran.of_failed {d : Nat} (hr : Issued s s' r) (h0 : (s.upcoming 0).answer = .failed d) :
    Ran C past (r.row :: rest) s (s'.raise .errBus) [r] := by
  refine ⟨hr.bus, hr.env, ?_, fun _ => hr.sa, rest, rfl, ?_⟩
  · simp [hr.slave, hr.sa]
  · exact .failed (k := 0) (answered_zero s) h0 hr.hung (by simp [hr.outcomes])

/-- A transfer that never returns ends the run. -/
theorem Ran.of_never {d : Nat} (hr : Issued s s' r) (h0 : (s.upcoming 0).answer = .never d) :
    Ran C past (r.row :: rest) s s'.hang [r] := by
  refine ⟨hr.bus, hr.env, ?_, fun _ => hr.sa, rest, rfl, ?_⟩
  · simp [hr.slave, hr.sa]
  · exact .never (k := 0) (answered_zero s) h0 rfl hr.outcomes

/-- A change before the run of what a run does not look at. -/
theorem Ran.of_eq (h : Ran C past rest s' t ts) (hbus : s'.bus = s.bus) (henv : s'.env = s.env)
    (hsa : past ≠ [] → s'.sa = s.sa) (hhung : s'.hung = s.hung) (hout : s'.outcomes = s.outcomes)
    (hup : ∀ n, s'.upcoming n = s.upcoming n) : Ran C past rest s t ts := by
  obtain ⟨left, hleft, hend⟩ := h.ends
  exact ⟨hbus ▸ h.bus, henv ▸ h.env, h.slave, fun hp => (h.sa hp).trans (hsa hp), left, hleft,
    hend.of_eq hhung hout hup⟩

end Runs

/-- What a run of a plan that follows its row can have done. -/
theorem Plan.Follows.ran {shape : ClearShape} {C : EndCondition} {p : Plan} {inited : Bool}
    {past rest : List (TransferKind × Byte × Nat)} {s : State} (h : p.Follows shape C inited past rest)
    (hinited : s.inited = inited) (hshape : s.cfg.clearShape = shape) : ∃ ts, Ran C past rest s (p.run s) ts := by
  induction p generalizing inited past rest s with
  | stop is o => exact ⟨[], by simp [Plan.run], by simp [Plan.run], by simp, by simp [Plan.run], rest, rfl,
      .stopped (by simpa using h (s.getXs is)) (answered_zero s) rfl rfl⟩
  | ifInited yes no ihy ihn =>
    simp only [Plan.Follows, ← hinited] at h
    simp only [Plan.run]
    split
    · next hi => exact ihy (by simpa [hi] using h) hi hshape
    · next hi => exact ihn (by simpa [hi] using h) rfl hshape
  | ifStatus bad good ihb ihg =>
    obtain ⟨hbad, hgood⟩ := h
    simp only [Plan.run]
    split
    · exact ihb hbad hinited hshape
    · exact ihg hgood hinited hshape
  | byShape two one iht iho =>
    cases shape with
    | twoOneByte => simpa only [Plan.run, hshape] using iht h hinited hshape
    | oneTwoByte => simpa only [Plan.run, hshape] using iho h hinited hshape
  | begin addr next ih =>
    obtain ⟨rfl, hnext⟩ := h
    obtain ⟨ts, hts⟩ := ih (s := s.beginInit addr) hnext rfl hshape
    exact ⟨ts, hts.of_eq rfl rfl (fun hp => absurd rfl hp) rfl rfl fun _ => rfl⟩
  | sterr v next ih =>
    obtain ⟨ts, hts⟩ := ih (s := s.setSterr v) h hinited hshape
    exact ⟨ts, hts.of_eq rfl rfl (fun _ => rfl) rfl rfl fun _ => rfl⟩
  | put i v next ih =>
    obtain ⟨ts, hts⟩ := ih (s := s.setX i (v s.cfg)) h hinited hshape
    exact ⟨ts, hts.of_eq rfl rfl (fun _ => rfl) rfl rfl fun _ => rfl⟩
  | modify i f next ih =>
    obtain ⟨ts, hts⟩ := ih (s := s.setX i (f s.cfg (s.getX i))) h hinited hshape
    exact ⟨ts, hts.of_eq rfl rfl (fun _ => rfl) rfl rfl fun _ => rfl⟩
  | read sp next ih =>
    cases rest with
    | nil => exact h.elim
    | cons r rest =>
      obtain ⟨rfl, hnext⟩ := h
      refine State.memRead_ind (P := fun t => ∃ ts, Ran C past (sp.row .read :: rest) s t ts) (fun h0 => ?_)
        (fun n h0 => ⟨_, .of_failed (s.issue_issued .read sp _ _) h0⟩)
        (fun n h0 => ⟨_, .of_never (s.issue_issued .read sp _ _) h0⟩)
      obtain ⟨ts, hts⟩ := ih (s := (s.issue .read sp (s.readBytes sp) (s.passed sp)).setXs sp.indices (s.readBytes sp))
        hnext (by simpa using hinited) (by simpa using hshape)
      exact ⟨_, hts.cons (s.issue_setXs_issued .read sp _ _ _) h0⟩
  | write sp next ih =>
    cases rest with
    | nil => exact h.elim
    | cons r rest =>
      obtain ⟨rfl, hnext⟩ := h
      refine State.memWrite_ind (P := fun t => ∃ ts, Ran C past (sp.row .write :: rest) s t ts) (fun h0 => ?_)
        (fun n h0 => ⟨_, .of_failed (s.issue_issued .write sp _ _) h0⟩)
        (fun n h0 => ⟨_, .of_never (s.issue_issued .write sp _ _) h0⟩)
      obtain ⟨ts, hts⟩ := ih (s := s.issue .write sp (s.getXs sp.indices) (s.delivered sp (s.getXs sp.indices)))
        hnext hinited hshape
      exact ⟨_, hts.cons (s.issue_issued .write sp _ _) h0⟩

end Sys2Proof.Machine
end

section
/-! Every command's plan follows the command's row of the table of transfers (20_memory.md R32), and what follows from
that: the outcomes, the transfers, the gate. -/

namespace Sys2Proof.Machine

/-! ### Where a command may end -/

/-- The state refuses the command (60_exceptions.md R186): a second INIT, or a device command before INIT. -/
def refusedBy (i : Instr) (inited : Bool) : Bool := (i.isInit && inited) || (i.isDevice && !inited)

/-- Where in its row a command may end with which outcome (20_memory.md R32; 60_exceptions.md section 1). -/
structure EndsInRow (i : Instr) (inited : Bool) (past rest : List (TransferKind × Byte × Nat)) (o : CmdOutcome) :
    Prop where
  errBus : o ≠ .errBus
  errOp : o = .errOp ↔ refusedBy i inited = true
  ok : ∀ v, o = .ok v → i.isInit = false → rest = []
  warnStatus : o = .warnStatus → i.isInit = true ∧ rest = []
  initOk : ∀ v, o = .ok v → i.isInit = true → past.length = 1
  rejValue : o = .rejValue → past = []
  errArg : ∀ f, o = .errArg f → ∀ r ∈ past, r.1 = .read

section Ends

variable {i : Instr} {inited : Bool} {past rest : List (TransferKind × Byte × Nat)}

theorem endsInRow_ok {v : Value} (hi : i.isInit = false) (hr : refusedBy i inited = false) :
    EndsInRow i inited past [] (.ok v) := by constructor <;> simp [hi, hr]

theorem endsInRow_initOk {v : Value} (hi : i.isInit = true) (hr : refusedBy i inited = false) (hp : past.length = 1) :
    EndsInRow i inited past rest (.ok v) := by constructor <;> simp [hi, hr, hp]

theorem endsInRow_warnStatus (hi : i.isInit = true) (hr : refusedBy i inited = false) :
    EndsInRow i inited past [] .warnStatus := by constructor <;> simp [hi, hr]

theorem endsInRow_rejValue (hr : refusedBy i inited = false) : EndsInRow i inited [] rest .rejValue := by
  constructor <;> simp [hr]

theorem endsInRow_errArg {f : Field} (hr : refusedBy i inited = false) (hp : ∀ r ∈ past, r.1 = .read) :
    EndsInRow i inited past rest (.errArg f) :=
  ⟨by simp, by simp [hr], by simp, by simp, by simp, by simp, fun _ _ => hp⟩

theorem endsInRow_errOp (hr : refusedBy i inited = true) : EndsInRow i inited past rest .errOp := by
  constructor <;> simp [hr]

end Ends

/-! ### The plans follow the rows -/

section Follows

variable {shape : ClearShape} {C : EndCondition} {inited : Bool} {past rest : List (TransferKind × Byte × Nat)}

theorem Plan.Follows.result {o : CmdOutcome} (h : C past rest o) :
    (Plan.result o).Follows shape C inited past rest := fun _ => h

theorem Plan.Follows.read {sp : Span} {next : Plan}
    (h : next.Follows shape C inited (past ++ [sp.row .read]) rest) :
    (Plan.read sp next).Follows shape C inited past (sp.row .read :: rest) := ⟨rfl, h⟩

theorem Plan.Follows.write {sp : Span} {next : Plan}
    (h : next.Follows shape C inited (past ++ [sp.row .write]) rest) :
    (Plan.write sp next).Follows shape C inited past (sp.row .write :: rest) := ⟨rfl, h⟩

theorem Plan.Follows.put {i : RegIndex} {v : Cfg → Byte} {next : Plan} (h : next.Follows shape C inited past rest) :
    (Plan.put i v next).Follows shape C inited past rest := h

theorem Plan.Follows.modify {i : RegIndex} {f : Cfg → Byte → Byte} {next : Plan}
    (h : next.Follows shape C inited past rest) : (Plan.modify i f next).Follows shape C inited past rest := h

theorem Plan.Follows.putDatetime {t : DateTime} {wd : Option Int} {next : Plan}
    (h : next.Follows shape C inited past rest) : (Plan.putDatetime t wd next).Follows shape C inited past rest := h

/-- Before INIT a device command ends with ERR_OP, after it its body has to follow the row. -/
theorem Plan.Follows.device {i : Instr} {body : Plan} {row : List (TransferKind × Byte × Nat)} (hi : i.isDevice = true)
    (h : body.Follows shape (EndsInRow i true) true [] row) :
    (Plan.device body).Follows shape (EndsInRow i inited) inited [] row := by
  cases inited with
  | true => exact h
  | false => exact fun _ => endsInRow_errOp (by simp [refusedBy, hi])

theorem Plan.Follows.rewriteControl {puts : Plan → Plan} {f1 f2 : Cfg → Byte → Byte} {next : Plan}
    (hputs : ∀ p past rest, p.Follows shape C inited past rest → (puts p).Follows shape C inited past rest)
    (h : next.Follows shape C inited (past ++ [Span.control.row .read] ++ [Span.control.row .write]) rest) :
    (Plan.rewriteControl puts f1 f2 next).Follows shape C inited past
      (Span.control.row .read :: Span.control.row .write :: rest) :=
  .read (hputs _ _ _ ⟨rfl, h⟩)

theorem Plan.Follows.putMask {wdmask : BitVec 7} {next : Plan} (h : next.Follows shape C inited past rest) :
    (Plan.putMask wdmask next).Follows shape C inited past rest := by
  unfold Plan.putMask
  split
  · exact h
  · exact h

end Follows

/-- Every command's plan follows the command's row. -/
theorem planOf_follows (i : Instr) (shape : ClearShape) (inited : Bool) :
    (planOf i).Follows shape (EndsInRow i inited) inited [] (i.transfers shape) := by
  cases i with
  | bcd2dec b => exact .result (endsInRow_ok rfl rfl)
  | dec2bcd d => exact .result (endsInRow_ok rfl rfl)
  | wday date month year4 => exact .result (endsInRow_ok rfl rfl)
  | ofsdec b => exact .result (endsInRow_ok rfl rfl)
  | ofsenc v =>
    simp only [planOf]
    split
    · exact .result (endsInRow_ok rfl rfl)
    · exact .result (endsInRow_rejValue rfl)
  | regaddr idx => exact .result (endsInRow_ok rfl rfl)
  | init addr =>
    cases inited with
    | true => exact fun _ => endsInRow_errOp rfl
    | false =>
      cases shape with
      | twoOneByte =>
        exact ⟨rfl, rfl, ⟨rfl, rfl, fun _ => endsInRow_warnStatus rfl rfl⟩, fun _ => endsInRow_initOk rfl rfl rfl⟩
      | oneTwoByte => exact ⟨rfl, rfl, ⟨rfl, fun _ => endsInRow_warnStatus rfl rfl⟩, fun _ => endsInRow_initOk rfl rfl rfl⟩
  | rddt => exact .device rfl (.read fun _ => endsInRow_ok rfl rfl)
  | wrdt se mi h d mo y wd =>
    refine .device rfl ?_
    split
    · exact .result (endsInRow_errArg rfl (by simp))
    · exact .putDatetime (.write (.read (.modify (.write (.result (endsInRow_ok rfl rfl))))))
  | ofsget => exact .device rfl (.read fun _ => endsInRow_ok rfl rfl)
  | ofsset v =>
    refine .device rfl ?_
    split
    · exact .put (.write (.result (endsInRow_ok rfl rfl)))
    · exact .result (endsInRow_rejValue rfl)
  | ctmode mode => exact .device rfl (.read (.modify (.write (.result (endsInRow_ok rfl rfl)))))
  | dalmset hours minutes =>
    refine .device rfl ?_
    split
    · exact .read (.result (endsInRow_errArg rfl (by simp [Span.row])))
    · exact .rewriteControl (fun _ _ _ h => h) (.write (.result (endsInRow_ok rfl rfl)))
  | dalmclr => exact .device rfl (.rewriteControl (fun _ _ _ h => h) (.write (.result (endsInRow_ok rfl rfl))))
  | dalmrst => exact .device rfl (.rewriteControl (fun _ _ _ h => h) (.result (endsInRow_ok rfl rfl)))
  | walmset hours minutes wdmask =>
    refine .device rfl ?_
    split
    · exact .read (.result (endsInRow_errArg rfl (by simp [Span.row])))
    · exact .rewriteControl (fun _ _ _ h => h.putMask) (.write (.result (endsInRow_ok rfl rfl)))
  | walmclr => exact .device rfl (.rewriteControl (fun _ _ _ h => h) (.write (.result (endsInRow_ok rfl rfl))))
  | walmrst => exact .device rfl (.rewriteControl (fun _ _ _ h => h) (.result (endsInRow_ok rfl rfl)))

/-- What a command that answers a next state has done. -/
theorem ran_of_exec {i : Instr} {s t : State} (h : exec i s = .next t) :
    ∃ ts, Ran (EndsInRow i s.inited) [] (i.transfers s.cfg.clearShape) s t ts := by
  rw [eq_run_of_exec h]
  exact (planOf_follows i s.cfg.clearShape s.inited).ran rfl rfl

theorem Ran.issuedSince {C : EndCondition} {past rest : List (TransferKind × Byte × Nat)} {s t : State}
    {ts : List Transfer} (h : Ran C past rest s t ts) : issuedSince s t = ts.length := by
  simp [Machine.issuedSince, h.bus]

/-- An outcome of a run other than ERR_BUS is one the plan itself gave. -/
theorem EndsAfter.allowed {Q : CmdOutcome → Prop} {s t : State} {n : Nat} {o : CmdOutcome} (h : EndsAfter Q s t n)
    (ho : t.outcomes = s.outcomes ++ [o]) (hne : o ≠ .errBus) : Q o := by
  cases h with
  | stopped allowed done hung outcomes =>
    obtain rfl : o = _ := by simpa using ho.symm.trans outcomes
    exact allowed
  | failed done last hung outcomes => exact absurd (by simpa using ho.symm.trans outcomes) hne
  | never done last hung outcomes => simp [outcomes] at ho

/-! ### Refusals -/

/-- Settles O16: in its domain a command is its plan, outside it is refused. -/
theorem onlyTheTwoDomainsAreRefused : Obligations.OnlyTheTwoDomainsAreRefused := by
  unfold Obligations.OnlyTheTwoDomainsAreRefused
  intro i s
  cases hd : i.inDomain with
  | true => simp [exec_eq_run hd]
  | false =>
    obtain ⟨r, hr⟩ := exec_refused hd
    simp [hr s]

/-- A device command's plan begins at the gate. -/
theorem planOf_eq_device {i : Instr} (h : i.isDevice = true) : ∃ body, planOf i = .device body := by
  cases i with
  | bcd2dec b => cases h
  | dec2bcd d => cases h
  | wday date month year4 => cases h
  | ofsdec b => cases h
  | ofsenc v => cases h
  | regaddr idx => cases h
  | init addr => cases h
  | _ => exact ⟨_, rfl⟩

theorem inDomain_of_not_isCodec {i : Instr} (h : i.isCodec = false) : i.inDomain = true := by
  cases i with
  | dec2bcd d => cases h
  | wday date month year4 => cases h
  | _ => rfl

theorem exec_init_of_inited {s : State} (h : s.inited = true) (addr : Option SlaveAddr) :
    exec (.init addr) s = .next (s.finish .errOp) := by
  rw [exec_eq_run rfl]
  simp [planOf, Plan.run, Plan.result, h]

theorem exec_device_before_init {i : Instr} {s : State} (hi : i.isDevice = true) (h : s.inited = false) :
    exec i s = .next (s.finish .errOp) := by
  have hcodec : i.isCodec = false := by simp_all [Instr.isDevice]
  obtain ⟨body, hbody⟩ := planOf_eq_device hi
  rw [exec_eq_run (inDomain_of_not_isCodec hcodec), hbody]
  simp [Plan.device, Plan.run, Plan.result, h]

/-- INIT is known by its code. -/
theorem eq_init_of_isInit {i : Instr} (h : i.isInit = true) : ∃ addr, i = .init addr := by
  cases i with
  | init addr => exact ⟨addr, rfl⟩
  | _ => cases h

theorem refusedBy_iff (i : Instr) (inited : Bool) :
    refusedBy i inited = true ↔ (i.isInit = true ∧ inited = true) ∨ (i.isDevice = true ∧ inited = false) := by
  simp [refusedBy]

/-- A command that the state refuses adds ERR_OP and does nothing else. -/
theorem exec_of_refusedBy {i : Instr} {s : State} (h : refusedBy i s.inited = true) :
    exec i s = .next (s.finish .errOp) := by
  obtain ⟨hi, hs⟩ | ⟨hi, hs⟩ := (refusedBy_iff i s.inited).mp h
  · obtain ⟨addr, rfl⟩ := eq_init_of_isInit hi
    exact exec_init_of_inited hs addr
  · exact exec_device_before_init hi hs

/-- Settles O20: no plan ends with ERR_OP but at its gate. -/
theorem errOpExactlyWhenTheStateRefuses : Obligations.ErrOpExactlyWhenTheStateRefuses := by
  unfold Obligations.ErrOpExactlyWhenTheStateRefuses
  intro i s t h
  have hrefused : t.outcomes = s.outcomes ++ [.errOp] → refusedBy i s.inited = true := by
    intro ho
    obtain ⟨ts, hts⟩ := ran_of_exec h
    obtain ⟨left, -, hend⟩ := hts.ends
    exact (hend.allowed ho (by decide)).errOp.mp rfl
  have hnext : refusedBy i s.inited = true → t = s.finish .errOp := fun hr =>
    Host.Outcome.next.inj (h.symm.trans (exec_of_refusedBy hr))
  rw [← refusedBy_iff]
  exact ⟨⟨hrefused, fun hr => hnext hr ▸ rfl⟩, fun ho => hnext (hrefused ho)⟩

/-! ### Outcomes and transfers -/

/-- A run gives one outcome, or none and hangs. -/
theorem EndsAfter.one_outcome_or_hung {Q : CmdOutcome → Prop} {s t : State} {n : Nat} (h : EndsAfter Q s t n)
    (hs : s.hung = false) :
    (t.hung = false ∧ ∃ o, t.outcomes = s.outcomes ++ [o]) ∨ (t.hung = true ∧ t.outcomes = s.outcomes) := by
  cases h with
  | stopped allowed done hung outcomes => exact .inl ⟨hung.trans hs, _, outcomes⟩
  | failed done last hung outcomes => exact .inl ⟨hung.trans hs, _, outcomes⟩
  | never done last hung outcomes => exact .inr ⟨hung, outcomes⟩

/-- A run hangs exactly when its last transfer never returned. -/
theorem EndsAfter.hung_iff {Q : CmdOutcome → Prop} {s t : State} {n : Nat} (h : EndsAfter Q s t n)
    (hs : s.hung = false) : t.hung = true ↔ ∃ k d, n = k + 1 ∧ (s.upcoming k).answer = .never d := by
  cases h with
  | stopped allowed done hung outcomes =>
    simp only [hung, hs, Bool.false_eq_true, false_iff]
    rintro ⟨k, d, rfl, hk⟩
    simp [done k (by omega)] at hk
  | failed done last hung outcomes =>
    simp only [hung, hs, Bool.false_eq_true, false_iff]
    rintro ⟨k, d, hn, hk⟩
    obtain rfl := Nat.succ_injective hn
    simp [last] at hk
  | never done last hung outcomes => simpa [hung] using ⟨_, last⟩

/-- A run ends with ERR_BUS exactly when its last transfer failed. -/
theorem EndsAfter.errBus_iff {Q : CmdOutcome → Prop} {s t : State} {n : Nat} (h : EndsAfter Q s t n)
    (hQ : ¬ Q .errBus) : t.outcomes = s.outcomes ++ [.errBus] ↔
      ∃ k d, n = k + 1 ∧ (∀ j < k, (s.upcoming j).answer = .done) ∧ (s.upcoming k).answer = .failed d := by
  cases h with
  | stopped allowed done hung outcomes =>
    constructor
    · intro ho
      obtain rfl : CmdOutcome.errBus = _ := by simpa using ho.symm.trans outcomes
      exact absurd allowed hQ
    · rintro ⟨k, d, rfl, -, hk⟩
      simp [done k (by omega)] at hk
  | failed done last hung outcomes => simpa [outcomes] using ⟨done, _, last⟩
  | never done last hung outcomes =>
    constructor
    · intro ho
      simp [outcomes] at ho
    · rintro ⟨k, d, hn, -, hk⟩
      obtain rfl := Nat.succ_injective hn
      simp [last] at hk

/-- Settles O46, by the ways a run can end. -/
theorem everyCommandGivesOneOutcomeOrHangs : Obligations.EveryCommandGivesOneOutcomeOrHangs := by
  unfold Obligations.EveryCommandGivesOneOutcomeOrHangs
  intro i s t hs h
  obtain ⟨ts, hts⟩ := ran_of_exec h
  obtain ⟨left, -, hend⟩ := hts.ends
  rw [hts.issuedSince]
  exact ⟨hend.one_outcome_or_hung hs, hend.hung_iff hs⟩

/-- Settles O47: no plan gives ERR_BUS itself. -/
theorem errBusExactlyWhenATransferFailed : Obligations.ErrBusExactlyWhenATransferFailed := by
  unfold Obligations.ErrBusExactlyWhenATransferFailed
  intro i s t h
  obtain ⟨ts, hts⟩ := ran_of_exec h
  obtain ⟨left, -, hend⟩ := hts.ends
  rw [hts.issuedSince]
  exact ⟨hend.errBus_iff fun hq => hq.errBus rfl, hts.env⟩

/-- Settles O48: the plan follows the row, and `EndsInRow` says where it may end. -/
theorem transfersFollowTheTable : Obligations.TransfersFollowTheTable := by
  unfold Obligations.TransfersFollowTheTable
  intro i s t h
  obtain ⟨ts, hts⟩ := ran_of_exec h
  obtain ⟨left, hleft, hend⟩ := hts.ends
  have hwhole : left = [] → ts.map Transfer.row = i.transfers s.cfg.clearShape := by
    rintro rfl
    simpa using hleft
  refine ⟨ts, hts.bus, hts.slave, ⟨left, hleft⟩, fun v ho hi => ?ok, fun ho => ?warnStatus, fun v ho hi => ?initOk,
    fun ho => ?rejValue, fun f ho => ?errArg⟩
  case ok => exact hwhole ((hend.allowed ho (by simp)).ok v rfl hi)
  case warnStatus =>
    obtain ⟨hi, hl⟩ := (hend.allowed ho (by simp)).warnStatus rfl
    exact ⟨hi, hwhole hl⟩
  case initOk => simpa using (hend.allowed ho (by simp)).initOk v rfl hi
  case rejValue => simpa using (hend.allowed ho (by simp)).rejValue rfl
  case errArg =>
    intro r hr
    exact (hend.allowed ho (by simp)).errArg f rfl r.row (by simpa using ⟨r, hr, rfl⟩)

end Sys2Proof.Machine
end

section
/-! The single operations of a plan. A property that every operation of a plan keeps is kept by the plan, whatever the
environment answers: frames are read off the list of a plan's operations. -/

namespace Sys2Proof.Machine

/-- What a plan does at one of its nodes. -/
inductive Op where
  | begin (addr : Option SlaveAddr)
  | sterr (v : Bool)
  | put (i : RegIndex) (v : Cfg → Byte)
  | modify (i : RegIndex) (f : Cfg → Byte → Byte)
  | read (sp : Span)
  | write (sp : Span)

/-- The operations of a plan, those of every branch. -/
def Plan.ops : Plan → List Op
  | .stop _ _ => []
  | .ifInited yes no => yes.ops ++ no.ops
  | .ifStatus bad good => bad.ops ++ good.ops
  | .byShape two one => two.ops ++ one.ops
  | .begin addr next => .begin addr :: next.ops
  | .sterr v next => .sterr v :: next.ops
  | .put i v next => .put i v :: next.ops
  | .modify i f next => .modify i f :: next.ops
  | .read sp next => .read sp :: next.ops
  | .write sp next => .write sp :: next.ops

/-- The operation keeps `P`, a transfer also when it is not answered. -/
def Op.Keeps (P : State → Prop) : Op → Prop
  | .begin addr => ∀ s, P s → P (s.beginInit addr)
  | .sterr v => ∀ s, P s → P (s.setSterr v)
  | .put i v => ∀ s, P s → P (s.setX i (v s.cfg))
  | .modify i f => ∀ s, P s → P (s.setX i (f s.cfg (s.getX i)))
  | .read sp => ∀ s, P s → P (s.issue .read sp [] s.found) ∧
      P ((s.issue .read sp (s.readBytes sp) (s.passed sp)).setXs sp.indices (s.readBytes sp))
  | .write sp => ∀ s bs, P s → P (s.issue .write sp (s.getXs sp.indices) (s.delivered sp bs))

/-- The end of a command keeps `P`. -/
structure EndKeeps (P : State → Prop) : Prop where
  finish : ∀ s o, P s → P (s.finish o)
  hang : ∀ s, P s → P s.hang

/-- A plan keeps what its operations and its end keep. -/
theorem Plan.run_keeps {P : State → Prop} {p : Plan} {s : State} (hend : EndKeeps P) (hops : ∀ op ∈ p.ops, op.Keeps P)
    (h : P s) : P (p.run s) := by
  induction p generalizing s with
  | stop is o => exact hend.finish s _ h
  | ifInited yes no ihy ihn =>
    simp only [Plan.ops, List.forall_mem_append] at hops
    obtain ⟨hyes, hno⟩ := hops
    simp only [Plan.run]
    split
    · exact ihy hyes h
    · exact ihn hno h
  | ifStatus bad good ihb ihg =>
    simp only [Plan.ops, List.forall_mem_append] at hops
    obtain ⟨hbad, hgood⟩ := hops
    simp only [Plan.run]
    split
    · exact ihb hbad h
    · exact ihg hgood h
  | byShape two one iht iho =>
    simp only [Plan.ops, List.forall_mem_append] at hops
    obtain ⟨htwo, hone⟩ := hops
    simp only [Plan.run]
    split
    · exact iht htwo h
    · exact iho hone h
  | begin addr next ih =>
    obtain ⟨hop, hnext⟩ := List.forall_mem_cons.mp hops
    exact ih hnext (hop s h)
  | sterr v next ih =>
    obtain ⟨hop, hnext⟩ := List.forall_mem_cons.mp hops
    exact ih hnext (hop s h)
  | put i v next ih =>
    obtain ⟨hop, hnext⟩ := List.forall_mem_cons.mp hops
    exact ih hnext (hop s h)
  | modify i f next ih =>
    obtain ⟨hop, hnext⟩ := List.forall_mem_cons.mp hops
    exact ih hnext (hop s h)
  | read sp next ih =>
    obtain ⟨hop, hnext⟩ := List.forall_mem_cons.mp hops
    obtain ⟨hcut, hdone⟩ := hop s h
    exact State.memRead_ind (fun _ => ih hnext hdone) (fun _ _ => hend.finish _ _ hcut) (fun _ _ => hend.hang _ hcut)
  | write sp next ih =>
    obtain ⟨hop, hnext⟩ := List.forall_mem_cons.mp hops
    exact State.memWrite_ind (fun _ => ih hnext (hop s _ h)) (fun _ _ => hend.finish _ _ (hop s _ h))
      (fun _ _ => hend.hang _ (hop s _ h))

/-- The mirror bytes an operation assigns or loads. -/
def Op.assigned : Op → List RegIndex
  | .begin _ => []
  | .sterr _ => []
  | .put i _ => [i]
  | .modify i _ => [i]
  | .read sp => sp.indices
  | .write _ => []

/-- The device registers an operation stores to. -/
def Op.stored : Op → List RegIndex
  | .begin _ => []
  | .sterr _ => []
  | .put _ _ => []
  | .modify _ _ => []
  | .read _ => []
  | .write sp => sp.indices

/-- The operation is one of INIT's own (43_composer.md R133). -/
def Op.constructs : Op → Bool
  | .begin _ => true
  | .sterr _ => true
  | .put _ _ => false
  | .modify _ _ => false
  | .read _ => false
  | .write _ => false

/-- What an operation may do: the mirror bytes and device registers it may change, and whether INIT's own fields. -/
def Op.within (assigns stores : List RegIndex) (constructs : Bool) (op : Op) : Bool :=
  op.assigned.all (assigns.contains ·) && op.stored.all (stores.contains ·) && (!op.constructs || constructs)

/-- 10_state.md R11 and 20_memory.md R32: no operation of a command is outside the command's rows. -/
theorem planOf_ops_within (i : Instr) :
    (planOf i).ops.all (Op.within i.mirrorWrites i.deviceWrites i.isInit) = true := by
  cases i with
  | wrdt se mi h d mo y wd =>
    simp only [planOf]
    cases dtValid se mi h d mo y wd with
    | error f => rfl
    | ok p => rfl
  | ofsset v =>
    simp only [planOf]
    cases ofsInRange v with
    | false => rfl
    | true => rfl
  | dalmset hours minutes =>
    simp only [planOf]
    cases almTime hours minutes with
    | error f => rfl
    | ok p => rfl
  | walmset hours minutes wdmask =>
    simp only [planOf, Plan.putMask, Instr.mirrorWrites]
    by_cases hm : wdmask = 0
    · simp only [if_pos hm]
      cases almTime hours minutes with
      | error f => rfl
      | ok p => rfl
    · simp only [if_neg hm]
      cases almTime hours minutes with
      | error f => rfl
      | ok p => rfl
  | _ => rfl

section Within

variable {i : Instr} {op : Op}

theorem assigned_of_mem_ops (h : op ∈ (planOf i).ops) : ∀ j ∈ op.assigned, j ∈ i.mirrorWrites := by
  have hop := List.all_eq_true.mp (planOf_ops_within i) op h
  simp only [Op.within, Bool.and_eq_true, List.all_eq_true, List.contains_iff_mem] at hop
  obtain ⟨⟨hassigned, -⟩, -⟩ := hop
  exact hassigned

theorem stored_of_mem_ops (h : op ∈ (planOf i).ops) : ∀ j ∈ op.stored, j ∈ i.deviceWrites := by
  have hop := List.all_eq_true.mp (planOf_ops_within i) op h
  simp only [Op.within, Bool.and_eq_true, List.all_eq_true, List.contains_iff_mem] at hop
  obtain ⟨⟨-, hstored⟩, -⟩ := hop
  exact hstored

theorem isInit_of_constructs (h : op ∈ (planOf i).ops) (hc : op.constructs = true) : i.isInit = true := by
  have hop := List.all_eq_true.mp (planOf_ops_within i) op h
  simpa [Op.within, hc] using (Bool.and_eq_true_iff.mp hop).2

end Within

/-! ### Frames -/

/-- The fields no command changes (10_state.md R12, R15). -/
def sameHost (s t : State) : Prop :=
  t.scratch = s.scratch ∧ t.cfg = s.cfg ∧ t.cp = s.cp ∧ t.program = s.program

/-- The fields INIT alone changes (10_state.md R13, R14, R16). -/
def sameConstruction (s t : State) : Prop := t.inited = s.inited ∧ t.sa = s.sa ∧ t.sterr = s.sterr

theorem sameHost_setXs {s t : State} (h : sameHost s t) (is : List RegIndex) (bs : List Byte) :
    sameHost s (t.setXs is bs) := by rw [State.setXs_eq]; exact h

theorem sameConstruction_setXs {s t : State} (h : sameConstruction s t) (is : List RegIndex) (bs : List Byte) :
    sameConstruction s (t.setXs is bs) := by rw [State.setXs_eq]; exact h

theorem Op.keeps_sameHost (s : State) (op : Op) : op.Keeps (sameHost s) := by
  cases op with
  | begin addr => exact fun _ h => h
  | sterr v => exact fun _ h => h
  | put i v => exact fun _ h => h
  | modify i f => exact fun _ h => h
  | read sp => exact fun t h => ⟨h, sameHost_setXs (t := t.issue .read sp _ _) h _ _⟩
  | write sp => exact fun _ _ h => h

theorem Op.keeps_sameConstruction (s : State) {op : Op} (hop : op.constructs = false) :
    op.Keeps (sameConstruction s) := by
  cases op with
  | begin addr => cases hop
  | sterr v => cases hop
  | put i v => exact fun _ h => h
  | modify i f => exact fun _ h => h
  | read sp => exact fun t h => ⟨h, sameConstruction_setXs (t := t.issue .read sp _ _) h _ _⟩
  | write sp => exact fun _ _ h => h

theorem sameHost_of_exec {i : Instr} {s t : State} (h : exec i s = .next t) : sameHost s t := by
  rw [eq_run_of_exec h]
  exact Plan.run_keeps ⟨fun _ _ h => h, fun _ h => h⟩ (fun op _ => op.keeps_sameHost s) ⟨rfl, rfl, rfl, rfl⟩

theorem sameConstruction_of_exec {i : Instr} {s t : State} (h : exec i s = .next t) (hi : i.isInit = false) :
    sameConstruction s t := by
  rw [eq_run_of_exec h]
  refine Plan.run_keeps ⟨fun _ _ h => h, fun _ h => h⟩ (fun op hop => ?_) ⟨rfl, rfl, rfl⟩
  exact Op.keeps_sameConstruction s (Bool.eq_false_iff.mpr fun hc => by simp [isInit_of_constructs hop hc] at hi)

/-- Settles O51, from the operations of the command's plan. -/
theorem onlyInitWritesTheConstructionState : Obligations.OnlyInitWritesTheConstructionState := by
  unfold Obligations.OnlyInitWritesTheConstructionState
  intro i s t h
  obtain ⟨hscratch, hcfg, hcp, hprogram⟩ := sameHost_of_exec h
  exact ⟨hscratch, hcfg, hcp, hprogram, sameConstruction_of_exec h⟩

/-- An operation keeps every mirror byte it does not assign. -/
theorem Op.keeps_getX (b : Byte) {op : Op} {j : RegIndex} (hj : j ∉ op.assigned) : op.Keeps fun t => t.getX j = b := by
  cases op with
  | begin addr => exact fun _ h => h
  | sterr v => exact fun _ h => h
  | put i v => exact fun t h => (t.getX_setX_ne (fun e => hj (List.mem_singleton.mpr e)) _).trans h
  | modify i f => exact fun t h => (t.getX_setX_ne (fun e => hj (List.mem_singleton.mpr e)) _).trans h
  | read sp => exact fun t h => ⟨h, (State.getX_setXs_of_not_mem _ hj _).trans h⟩
  | write sp => exact fun _ _ h => h

theorem getX_of_exec {i : Instr} {s t : State} (h : exec i s = .next t) {j : RegIndex} (hj : j ∉ i.mirrorWrites) :
    t.getX j = s.getX j := by
  rw [eq_run_of_exec h]
  exact Plan.run_keeps (P := fun t => t.getX j = s.getX j) ⟨fun _ _ h => h, fun _ h => h⟩
    (fun op hop => Op.keeps_getX _ fun hm => hj (assigned_of_mem_ops hop j hm)) rfl

/-- Settles O49. -/
theorem mirrorChangesOnlyAsTheTableSays : Obligations.MirrorChangesOnlyAsTheTableSays := by
  unfold Obligations.MirrorChangesOnlyAsTheTableSays
  exact fun i s t h j hj => getX_of_exec h hj

/-! ### The device -/

/-- `t` is a state of a run from `s`: the environment's events follow on. -/
structure Since (s t : State) : Prop where
  upcoming : ∀ k, t.upcoming k = s.upcoming (issuedSince s t + k)
  longer : s.bus.length ≤ t.bus.length

theorem Since.refl (s : State) : Since s s := ⟨fun k => by simp [issuedSince], le_rfl⟩

section Since

variable {s t : State} (h : Since s t)
include h

theorem Since.issuedSince_issue (kd : TransferKind) (sp : Span) (bs : List Byte) (m : Memory) :
    issuedSince s (t.issue kd sp bs m) = issuedSince s t + 1 := by
  have hlonger := h.longer
  simp only [issuedSince, State.issue_bus, List.length_append, List.length_singleton]
  omega

theorem Since.issue (kd : TransferKind) (sp : Span) (bs : List Byte) (m : Memory) : Since s (t.issue kd sp bs m) := by
  refine ⟨fun k => ?_, by simpa using Nat.le_succ_of_le h.longer⟩
  rw [State.issue_upcoming, h.upcoming, h.issuedSince_issue, Nat.add_right_comm, Nat.add_assoc]

theorem Since.setXs (is : List RegIndex) (bs : List Byte) : Since s (t.setXs is bs) := by
  rw [State.setXs_eq]
  exact ⟨h.upcoming, h.longer⟩

/-- The environment leaves a register up to and in a transfer: it did before, and does in the transfer's event. -/
theorem Since.undrifted_issue {kd : TransferKind} {sp : Span} {bs : List Byte} {m : Memory} {a : RegIndex}
    (hu : undrifted s (issuedSince s (t.issue kd sp bs m)) a) :
    undrifted s (issuedSince s t) a ∧ ∀ p ∈ (t.upcoming 0).changes, p.1 ≠ a := by
  rw [h.issuedSince_issue] at hu
  exact ⟨fun k hk => hu k (Nat.lt_succ_of_lt hk), h.upcoming 0 ▸ hu (issuedSince s t) (Nat.lt_succ_self _)⟩

end Since

/-- `t` is a state of a run from `s` in which register `a` reads as at `s`, unless the environment changed it. -/
structure DeviceFrame (s : State) (a : RegIndex) (t : State) : Prop where
  since : Since s t
  read : undrifted s (issuedSince s t) a → t.mem.read a = s.mem.read a

theorem DeviceFrame.issue {s t : State} {a : RegIndex} (h : DeviceFrame s a t) (kd : TransferKind) (sp : Span)
    (bs : List Byte) {m : Memory} (hm : (∀ p ∈ (t.upcoming 0).changes, p.1 ≠ a) → m.read a = t.mem.read a) :
    DeviceFrame s a (t.issue kd sp bs m) := by
  refine ⟨h.since.issue kd sp bs m, fun hu => ?_⟩
  obtain ⟨hbefore, hlast⟩ := h.since.undrifted_issue hu
  exact (hm hlast).trans (h.read hbefore)

theorem DeviceFrame.setXs {s t : State} {a : RegIndex} (h : DeviceFrame s a t) (is : List RegIndex) (bs : List Byte) :
    DeviceFrame s a (t.setXs is bs) := by
  rw [State.setXs_eq]
  exact ⟨⟨h.since.upcoming, h.since.longer⟩, h.read⟩

/-- An operation keeps every register it does not store to. -/
theorem Op.keeps_deviceFrame (s : State) {a : RegIndex} {op : Op} (ha : a ∉ op.stored) :
    op.Keeps (DeviceFrame s a) := by
  cases op with
  | begin addr => exact fun t h => ⟨⟨h.since.upcoming, h.since.longer⟩, h.read⟩
  | sterr v => exact fun t h => ⟨⟨h.since.upcoming, h.since.longer⟩, h.read⟩
  | put i v => exact fun t h => ⟨⟨h.since.upcoming, h.since.longer⟩, h.read⟩
  | modify i f => exact fun t h => ⟨⟨h.since.upcoming, h.since.longer⟩, h.read⟩
  | read sp => exact fun t h => ⟨h.issue .read sp _ State.read_found,
      (h.issue .read sp _ fun hc => State.read_passed hc sp).setXs _ _⟩
  | write sp => exact fun t bs h => h.issue .write sp _ fun hc => State.read_delivered hc ha bs

/-- Settles O50, from the operations of the command's plan. -/
theorem deviceChangesOnlyWhereTheCommandStores : Obligations.DeviceChangesOnlyWhereTheCommandStores := by
  unfold Obligations.DeviceChangesOnlyWhereTheCommandStores
  intro i s t h a ha hu
  rw [eq_run_of_exec h] at hu ⊢
  have hstart : DeviceFrame s a s := ⟨.refl s, fun _ => rfl⟩
  have hend : EndKeeps (DeviceFrame s a) :=
    ⟨fun t o h => ⟨⟨h.since.upcoming, h.since.longer⟩, h.read⟩, fun t h => ⟨⟨h.since.upcoming, h.since.longer⟩, h.read⟩⟩
  exact (Plan.run_keeps hend (fun op hop => Op.keeps_deviceFrame s fun hm => ha (stored_of_mem_ops hop a hm))
    hstart).read hu

/-! ### The gate -/

theorem Op.keeps_inited (op : Op) : op.Keeps fun t => t.inited = true := by
  cases op with
  | begin addr => exact fun _ _ => rfl
  | sterr v => exact fun _ h => h
  | put i v => exact fun _ h => h
  | modify i f => exact fun _ h => h
  | read sp => exact fun t h => ⟨h, by simpa using h⟩
  | write sp => exact fun _ _ h => h

/-- `inited` is never cleared by a command (10_state.md R14). -/
theorem Plan.run_inited (p : Plan) {s : State} (h : s.inited = true) : (p.run s).inited = true :=
  p.run_keeps (P := fun t => t.inited = true) ⟨fun _ _ h => h, fun _ h => h⟩ (fun op _ => op.keeps_inited) h

/-- INIT leaves `inited` set, whatever the bus answers. -/
theorem inited_of_exec_init {s t : State} {addr : Option SlaveAddr} (h : exec (.init addr) s = .next t) :
    t.inited = true := by
  rw [eq_run_of_exec h]
  simp only [planOf, Plan.run]
  split
  · next hs => exact hs
  · exact Plan.run_inited _ (s := s.beginInit addr) rfl

theorem planOf_codec {i : Instr} (h : i.isCodec = true) : ∃ o, o ≠ .errOp ∧ planOf i = .result o := by
  cases i with
  | bcd2dec b => exact ⟨_, by simp, rfl⟩
  | dec2bcd d => exact ⟨_, by simp, rfl⟩
  | wday date month year4 => exact ⟨_, by simp, rfl⟩
  | ofsdec b => exact ⟨_, by simp, rfl⟩
  | ofsenc v => exact ⟨_, by split <;> simp, rfl⟩
  | regaddr idx => exact ⟨_, by simp, rfl⟩
  | _ => cases h

/-- Settles O19. -/
theorem initedGatesTheCommands : Obligations.InitedGatesTheCommands := by
  unfold Obligations.InitedGatesTheCommands
  refine ⟨rfl, fun s t addr _ h => inited_of_exec_init h, fun s i hi hs => exec_device_before_init hi hs,
    fun s addr hs => exec_init_of_inited hs addr, fun s i hi hd => ?codec⟩
  case codec =>
    obtain ⟨o, ho, hplan⟩ := planOf_codec hi
    refine ⟨o, ho, fun v => ?_⟩
    rw [exec_eq_run hd, hplan]
    rfl

/-- Settles O24: `inited` stays set after the failure, and is clear after the reset. -/
theorem aFailedInitNeedsAReset : Obligations.AFailedInitNeedsAReset := by
  unfold Obligations.AFailedInitNeedsAReset
  intro s t addr addr' _ _ h _
  refine ⟨exec_init_of_inited (inited_of_exec_init h) addr', _, exec_eq_run rfl t.blockReset,
    inited_of_exec_init (exec_eq_run rfl t.blockReset), fun ho => ?notRefused⟩
  case notRefused =>
    obtain ⟨ts, hts⟩ := ran_of_exec (exec_eq_run (i := .init addr') rfl t.blockReset)
    obtain ⟨left, -, hend⟩ := hts.ends
    have hopen : refusedBy (.init addr') t.blockReset.inited = false := rfl
    exact absurd ((hend.allowed ho (by decide)).errOp.mp rfl) (by simp [hopen])

end Sys2Proof.Machine
end

section
/-! The invariant of the machine: it holds after reset, and every step keeps it. The parts about device memory and the
mirror are kept by every operation of every plan; the parts about the bus follow from the rows of the commands. -/

namespace Sys2Proof.Machine

/-! ### The alarm bytes of the mirror -/

/-- The mirror bytes of the alarm registers. -/
def alarmBytes : List RegIndex := [8, 9, 10, 11, 12]

/-- What an alarm byte of the mirror may be set to: a BCD minute, a BCD hour, a 7-bit mask (30_encoding.md R56; decision
D20). -/
structure AlarmValid (j : RegIndex) (b : Byte) : Prop where
  minute : j = 8 ∨ j = 11 → bcdUpTo 59 b = true
  hour : j = 9 ∨ j = 12 → bcdUpTo 23 b = true
  mask : j = 10 → b.getLsbD 7 = false

/-- The operation leaves the alarm bytes, or assigns a valid one. -/
def Op.AlarmSafe : Op → Prop
  | .begin _ => True
  | .sterr _ => True
  | .put i v => ∀ c, AlarmValid i (v c)
  | .modify i _ => i ∉ alarmBytes
  | .read sp => ∀ j ∈ alarmBytes, j ∉ sp.indices
  | .write _ => True

/-- No alarm byte, so every value. -/
theorem alarmValid_of_not_mem {j : RegIndex} (h : j ∉ alarmBytes) (b : Byte) : AlarmValid j b := by
  simp only [alarmBytes, List.mem_cons, List.not_mem_nil, or_false, not_or] at h
  constructor <;> intro hj <;> simp_all

/-- The alarm bytes hold the reset value `r` or a valid one. -/
def AlarmsOk (r : Byte) (s : State) : Prop := ∀ j ∈ alarmBytes, s.getX j = r ∨ AlarmValid j (s.getX j)

theorem alarmsOk_setX {r : Byte} {s : State} (h : AlarmsOk r s) {i : RegIndex} {v : Byte} (hv : AlarmValid i v) :
    AlarmsOk r (s.setX i v) := by
  intro j hj
  by_cases hji : j = i
  · subst hji
    simpa using .inr hv
  · simpa [State.getX_setX_ne s hji] using h j hj

theorem alarmsOk_setXs {r : Byte} {s : State} (h : AlarmsOk r s) {is : List RegIndex} (his : ∀ j ∈ alarmBytes, j ∉ is)
    (bs : List Byte) : AlarmsOk r (s.setXs is bs) := by
  intro j hj
  rw [State.getX_setXs_of_not_mem s (his j hj)]
  exact h j hj

theorem Op.AlarmSafe.keeps {op : Op} (h : op.AlarmSafe) (r : Byte) : op.Keeps (AlarmsOk r) := by
  cases op with
  | begin addr => exact fun _ ht => ht
  | sterr v => exact fun _ ht => ht
  | put i v => exact fun t ht => alarmsOk_setX ht (h t.cfg)
  | modify i f => exact fun t ht => alarmsOk_setX ht (alarmValid_of_not_mem h _)
  | read sp => exact fun t ht => ⟨ht, alarmsOk_setXs (s := t.issue .read sp _ _) ht h _⟩
  | write sp => exact fun _ _ ht => ht

/-! ### The bytes assigned are valid -/

theorem bcdUpTo_dec2bcd {n : Nat} {hi : Int} (hn : n ≤ 99) (hhi : n ≤ hi) : bcdUpTo hi (dec2bcd n) = true := by
  have htens : (dec2bcd n >>> 4).toNat ≤ 9 := by
    rw [BitVec.toNat_ushiftRight, Nat.shiftRight_eq_div_pow, toNat_dec2bcd hn]
    omega
  have hunits : (dec2bcd n &&& 0xF).toNat ≤ 9 := by
    rw [toNat_and_lowNibble, toNat_dec2bcd hn]
    omega
  rw [bcdUpTo, decide_eq_true htens, decide_eq_true hunits, bcd2dec_dec2bcd hn, decide_eq_true hhi]
  rfl

/-- The time bytes of valid alarm operands (44_alarms.md R150). -/
theorem almTime_valid {hours minutes : Option Int} {bm bh : Byte} (h : almTime hours minutes = .ok (bm, bh)) :
    bcdUpTo 59 bm = true ∧ bcdUpTo 23 bh = true := by
  rw [almTime_eq_checked, checked_cons, checked_cons, checked_nil] at h
  cases hm : failsOptional 0 59 minutes with
  | true => simp [hm] at h
  | false =>
    cases hh : failsOptional 0 23 hours with
    | true => simp [hm, hh] at h
    | false =>
      obtain ⟨hm0, hm59⟩ := getD_mem_of_not_failsOptional (by decide) hm
      obtain ⟨hh0, hh23⟩ := getD_mem_of_not_failsOptional (by decide) hh
      simp only [hm, hh, Bool.false_eq_true, if_false, Except.ok.injEq, Prod.mk.injEq] at h
      obtain ⟨rfl, rfl⟩ := h
      rw [minuteByte_eq hm0 hm59, hourByte_eq hh0 hh23, ← dec2bcd_eq_ofInt hm0 (by omega),
        ← dec2bcd_eq_ofInt hh0 (by omega)]
      obtain ⟨m, hm⟩ := Int.eq_ofNat_of_zero_le hm0
      obtain ⟨k, hk⟩ := Int.eq_ofNat_of_zero_le hh0
      rw [hm, hk]
      exact ⟨bcdUpTo_dec2bcd (by omega) (by omega), bcdUpTo_dec2bcd (by omega) (by omega)⟩

theorem alarmValid_minute {i : RegIndex} (hi : i = 8 ∨ i = 11) {b : Byte} (hb : bcdUpTo 59 b = true) : AlarmValid i b := by
  obtain rfl | rfl := hi
  · exact ⟨fun _ => hb, by simp, by simp⟩
  · exact ⟨fun _ => hb, by simp, by simp⟩

theorem alarmValid_hour {i : RegIndex} (hi : i = 9 ∨ i = 12) {b : Byte} (hb : bcdUpTo 23 b = true) : AlarmValid i b := by
  obtain rfl | rfl := hi
  · exact ⟨by simp, fun _ => hb, by simp⟩
  · exact ⟨by simp, fun _ => hb, by simp⟩

theorem alarmValid_mask (wdmask : BitVec 7) : AlarmValid 10 (wdmask.setWidth 8) :=
  ⟨by simp, by simp, fun _ => by simp⟩

/-- The two time bytes of an alarm. -/
theorem alarmSafe_putTime {i j : RegIndex} (hi : i = 8 ∨ i = 11) (hj : j = 9 ∨ j = 12) {bm bh : Byte}
    (hm : bcdUpTo 59 bm = true) (hh : bcdUpTo 23 bh = true) {next : Plan} (hnext : ∀ op ∈ next.ops, op.AlarmSafe) :
    ∀ op ∈ (Plan.putTime i j bm bh next).ops, op.AlarmSafe :=
  List.forall_mem_cons.mpr ⟨fun _ => alarmValid_minute hi hm,
    List.forall_mem_cons.mpr ⟨fun _ => alarmValid_hour hj hh, hnext⟩⟩

theorem alarmSafe_putMask (wdmask : BitVec 7) {next : Plan} (hnext : ∀ op ∈ next.ops, op.AlarmSafe) :
    ∀ op ∈ (Plan.putMask wdmask next).ops, op.AlarmSafe := by
  unfold Plan.putMask
  split
  · exact hnext
  · exact List.forall_mem_cons.mpr ⟨fun _ => alarmValid_mask wdmask, hnext⟩

/-- A command that assigns time bytes assigns them between the read and the rewriting of the Control block. -/
theorem alarmSafe_rewriteControl {puts : Plan → Plan} {f1 f2 : Cfg → Byte → Byte} {next : Plan}
    (hputs : ∀ p, (∀ op ∈ p.ops, op.AlarmSafe) → ∀ op ∈ (puts p).ops, op.AlarmSafe)
    (hnext : ∀ op ∈ next.ops, op.AlarmSafe) :
    ∀ op ∈ (Plan.rewriteControl puts f1 f2 next).ops, op.AlarmSafe := by
  refine List.forall_mem_cons.mpr ⟨by simp [Op.AlarmSafe, alarmBytes, Span.indices], hputs _ ?_⟩
  simpa [Plan.ops, Op.AlarmSafe, alarmBytes] using hnext

/-- An operation that assigns no alarm byte. -/
theorem alarmSafe_of_assigned {op : Op} (h : ∀ j ∈ alarmBytes, j ∉ op.assigned) : op.AlarmSafe := by
  have hnot : ∀ i, op.assigned = [i] → i ∉ alarmBytes := fun i hi hm => h i hm (by simp [hi])
  cases op with
  | begin addr => trivial
  | sterr v => trivial
  | put i v => exact fun c => alarmValid_of_not_mem (hnot i rfl) _
  | modify i f => exact hnot i rfl
  | read sp => exact h
  | write sp => trivial

theorem alarmSafe_device {body : Plan} (h : ∀ op ∈ body.ops, op.AlarmSafe) :
    ∀ op ∈ (Plan.device body).ops, op.AlarmSafe := by simpa [Plan.device, Plan.ops, Plan.result] using h

/-- The rest of a command after the rewriting of the Control block assigns nothing. -/
theorem alarmSafe_write_result (sp : Span) (o : CmdOutcome) : ∀ op ∈ (Plan.write sp (.result o)).ops, op.AlarmSafe := by
  simp [Plan.ops, Plan.result, Op.AlarmSafe]

theorem alarmSafe_read_result (o : CmdOutcome) : ∀ op ∈ (Plan.read .control (.result o)).ops, op.AlarmSafe := by
  simp [Plan.ops, Plan.result, Op.AlarmSafe, alarmBytes, Span.indices]

/-- No command sets an alarm byte of the mirror to anything but a valid one. -/
theorem planOf_alarmSafe (i : Instr) : ∀ op ∈ (planOf i).ops, op.AlarmSafe := by
  have hzero : bcdUpTo 59 0x00 = true ∧ bcdUpTo 23 0x00 = true := by decide
  obtain ⟨hminute, hhour⟩ := hzero
  cases i with
  | dalmset hours minutes =>
    refine alarmSafe_device ?_
    split
    · exact alarmSafe_read_result _
    · next h =>
      obtain ⟨hm, hh⟩ := almTime_valid h
      exact alarmSafe_rewriteControl (fun _ => alarmSafe_putTime (.inr rfl) (.inr rfl) hm hh) (alarmSafe_write_result _ _)
  | dalmclr =>
    exact alarmSafe_device (alarmSafe_rewriteControl (fun _ => alarmSafe_putTime (.inr rfl) (.inr rfl) hminute hhour)
      (alarmSafe_write_result _ _))
  | walmset hours minutes wdmask =>
    refine alarmSafe_device ?_
    split
    · exact alarmSafe_read_result _
    · next h =>
      obtain ⟨hm, hh⟩ := almTime_valid h
      exact alarmSafe_rewriteControl
        (fun _ hp => alarmSafe_putTime (.inl rfl) (.inl rfl) hm hh (alarmSafe_putMask wdmask hp))
        (alarmSafe_write_result _ _)
  | walmclr =>
    exact alarmSafe_device (alarmSafe_rewriteControl (fun _ => alarmSafe_putTime (.inl rfl) (.inl rfl) hminute hhour)
      (alarmSafe_write_result _ _))
  | _ =>
    exact fun op hop => alarmSafe_of_assigned fun j hj hm =>
      absurd (assigned_of_mem_ops hop j hm) (by revert j; simp [alarmBytes, Instr.mirrorWrites])

/-! ### Device memory -/

theorem Op.keeps_wf (op : Op) : op.Keeps fun t => t.mem.wf = true := by
  cases op with
  | begin addr => exact fun _ h => h
  | sterr v => exact fun _ h => h
  | put i v => exact fun _ h => h
  | modify i f => exact fun _ h => h
  | read sp => exact fun t h => ⟨State.wf_found h, by simpa using State.wf_passed h sp⟩
  | write sp => exact fun t bs h => State.wf_delivered h sp bs

/-! ### The rows of the table -/

/-- 20_memory.md R37, R38: every row names a register in the high nibble and moves 1, 2, 3 or 7 bytes. -/
theorem transfers_shape (i : Instr) (shape : ClearShape) :
    ∀ r ∈ i.transfers shape, r.2.1 &&& 0x0F = 0 ∧ r.2.2 ∈ [1, 2, 3, 7] := by
  cases i with
  | init addr =>
    cases shape with
    | twoOneByte => simp [Instr.transfers]
    | oneTwoByte => simp [Instr.transfers]
  | _ => simp [Instr.transfers]

/-! ### The invariant -/

/-- 10_state.md R11: no row of the table names `x[13]`. -/
theorem ram_not_written (i : Instr) : (13 : RegIndex) ∉ i.mirrorWrites := by
  cases i with
  | walmset hours minutes wdmask =>
    simp only [Instr.mirrorWrites]
    split <;> decide
  | _ => simp [Instr.mirrorWrites]

theorem alarmsOk_of_inv {s : State} (h : Inv s) : AlarmsOk s.cfg.mirrorReset s := by
  intro j hj
  simp only [alarmBytes, List.mem_cons, List.not_mem_nil, or_false] at hj
  obtain rfl | rfl | rfl | rfl | rfl := hj
  · exact (h.alarmMinutes 8 (by simp)).imp_right (alarmValid_minute (.inl rfl))
  · exact (h.alarmHours 9 (by simp)).imp_right (alarmValid_hour (.inl rfl))
  · exact h.weekdayMask.imp_right fun hb => ⟨by simp, by simp, fun _ => hb⟩
  · exact (h.alarmMinutes 11 (by simp)).imp_right (alarmValid_minute (.inr rfl))
  · exact (h.alarmHours 12 (by simp)).imp_right (alarmValid_hour (.inr rfl))

/-- A command before INIT that is not INIT returns an outcome and does nothing else (10_state.md R14). -/
theorem eq_finish_before_init {i : Instr} {s t : State} (h : exec i s = .next t) (hi : i.isInit = false)
    (hs : s.inited = false) : ∃ o, t = s.finish o := by
  cases hc : i.isCodec with
  | true =>
    obtain ⟨o, -, hplan⟩ := planOf_codec hc
    exact ⟨o, by rw [eq_run_of_exec h, hplan]; rfl⟩
  | false =>
    have hdevice : i.isDevice = true := by simp [Instr.isDevice, hc, hi]
    exact ⟨.errOp, Host.Outcome.next.inj (h.symm.trans (exec_device_before_init hdevice hs))⟩

/-- Before INIT nothing has been transferred: a command after which `inited` is clear was none that transfers. -/
theorem Inv.beforeInit_exec {i : Instr} {s t : State} (hinv : Inv s) (h : exec i s = .next t) (ht : t.inited = false) :
    t.sterr = false ∧ t.bus = [] ∧ t.hung = false := by
  have hi : i.isInit = false := by
    refine Bool.eq_false_iff.mpr fun hi => ?_
    obtain ⟨addr, rfl⟩ := eq_init_of_isInit hi
    simp [inited_of_exec_init h] at ht
  obtain ⟨hinited, -, -⟩ := sameConstruction_of_exec h hi
  obtain ⟨o, rfl⟩ := eq_finish_before_init h hi (hinited ▸ ht)
  exact hinv.beforeInit ht

/-- The slave address is written once, before the first transfer. -/
theorem Inv.slave_exec {i : Instr} {s t : State} (hinv : Inv s) (h : exec i s = .next t) :
    ∀ r ∈ t.bus, r.slave = t.sa := by
  obtain ⟨ts, hts⟩ := ran_of_exec h
  have hold : s.bus = [] ∨ t.sa = s.sa := by
    cases hi : i.isInit with
    | false =>
      obtain ⟨-, hsa, -⟩ := sameConstruction_of_exec h hi
      exact .inr hsa
    | true =>
      obtain ⟨addr, rfl⟩ := eq_init_of_isInit hi
      cases hs : s.inited with
      | false =>
        obtain ⟨-, hbus, -⟩ := hinv.beforeInit hs
        exact .inl hbus
      | true =>
        rw [exec_init_of_inited hs] at h
        cases h
        exact .inr rfl
  intro r hr
  obtain hr | hr := List.mem_append.mp (hts.bus ▸ hr)
  · obtain hbus | hsa := hold
    · simp [hbus] at hr
    · exact (hinv.slave r hr).trans hsa.symm
  · exact hts.slave r hr

theorem Inv.shape_exec {i : Instr} {s t : State} (hinv : Inv s) (h : exec i s = .next t) :
    ∀ r ∈ t.bus, r.wire &&& 0x0F = 0 ∧ r.count ∈ [1, 2, 3, 7] := by
  obtain ⟨ts, hts⟩ := ran_of_exec h
  obtain ⟨left, hleft, -⟩ := hts.ends
  intro r hr
  obtain hr | hr := List.mem_append.mp (hts.bus ▸ hr)
  · exact hinv.shape r hr
  · have hrow : r.row ∈ i.transfers s.cfg.clearShape :=
      hleft ▸ List.mem_append_left left (List.mem_map_of_mem hr)
    exact transfers_shape i s.cfg.clearShape r.row hrow

/-- The host counts the outcome, if there is one (10_state.md R15). -/
theorem hostAdvance_eq {s t : State} (hs : s.cp = s.outcomes.length) (hcp : t.cp = s.cp)
    (h : (t.hung = false ∧ ∃ o, t.outcomes = s.outcomes ++ [o]) ∨ (t.hung = true ∧ t.outcomes = s.outcomes)) :
    t.hostAdvance = { t with cp := t.outcomes.length } := by
  obtain ⟨hh, o, ho⟩ | ⟨hh, ho⟩ := h
  · rw [hostAdvance_of_not_hung hh, ho, hcp, hs, List.length_append, List.length_singleton]
  · have hcount : t.cp = t.outcomes.length := by rw [hcp, hs, ho]
    rw [hostAdvance_of_hung hh, ← hcount]

/-- A command, with the host's count of its outcome, keeps the invariant. -/
theorem Inv.exec {i : Instr} {s t : State} (hinv : Inv s) (hs : s.hung = false) (h : exec i s = .next t) :
    Inv t.hostAdvance := by
  obtain ⟨hscratch, hcfg, hcp, -⟩ := sameHost_of_exec h
  obtain ⟨ts, hts⟩ := ran_of_exec h
  obtain ⟨left, -, hend⟩ := hts.ends
  have hmem : t.mem.wf = true := by
    rw [eq_run_of_exec h]
    exact Plan.run_keeps (P := fun t => t.mem.wf = true) ⟨fun _ _ h => h, fun _ h => h⟩ (fun op _ => op.keeps_wf)
      hinv.memory
  have halarms : AlarmsOk s.cfg.mirrorReset t := by
    rw [eq_run_of_exec h]
    exact Plan.run_keeps ⟨fun _ _ h => h, fun _ h => h⟩ (fun op hop => (planOf_alarmSafe i op hop).keeps _)
      (alarmsOk_of_inv hinv)
  rw [← hcfg] at halarms
  rw [hostAdvance_eq hinv.counted hcp (hend.one_outcome_or_hung hs)]
  exact {
    memory := hmem
    ram := (getX_of_exec h (ram_not_written i)).trans (hcfg ▸ hinv.ram)
    scratch := hscratch.trans (hcfg ▸ hinv.scratch)
    weekdayMask := (halarms 10 (by simp [alarmBytes])).imp_right fun hv => hv.mask rfl
    alarmMinutes := fun j hj => by
      have hj' : j = 8 ∨ j = 11 := by simpa using hj
      exact (halarms j (by simp [alarmBytes]; tauto)).imp_right fun hv => hv.minute hj'
    alarmHours := fun j hj => by
      have hj' : j = 9 ∨ j = 12 := by simpa using hj
      exact (halarms j (by simp [alarmBytes]; tauto)).imp_right fun hv => hv.hour hj'
    beforeInit := fun ht => hinv.beforeInit_exec (t := t) h ht
    slave := fun r hr => hinv.slave_exec h r hr
    shape := fun r hr => hinv.shape_exec h r hr
    counted := rfl }

/-- An outcome alone, with the host's count of it, keeps the invariant. -/
theorem Inv.finish {s : State} (hinv : Inv s) (hs : s.hung = false) (o : CmdOutcome) :
    Inv (s.finish o).hostAdvance := by
  rw [hostAdvance_eq (s := s) (t := s.finish o) hinv.counted rfl (.inl ⟨hs, o, rfl⟩)]
  obtain ⟨memory, ram, scratch, weekdayMask, alarmMinutes, alarmHours, beforeInit, slave, shape, -⟩ := hinv
  exact ⟨memory, ram, scratch, weekdayMask, alarmMinutes, alarmHours, beforeInit, slave, shape, rfl⟩

/-- What a step that answers a next state can have done. -/
theorem step_cases {s t : State} (h : step s = .next t) :
    t = s ∨ (s.hung = false ∧ t = (s.finish .errOp).hostAdvance) ∨
      ∃ i u, s.hung = false ∧ exec i s = .next u ∧ t = u.hostAdvance := by
  cases hh : s.hung with
  | true =>
    rw [step_of_hung hh] at h
    cases h
  | false =>
    cases hf : s.fetch with
    | none =>
      rw [step_of_no_command hh hf] at h
      cases h
      exact .inl rfl
    | some p =>
      cases hd : decode p with
      | error e =>
        rw [step_of_error hh hf hd] at h
        cases h
        exact .inr (.inl ⟨rfl, rfl⟩)
      | ok i =>
        cases hi : i.inDomain with
        | true =>
          rw [step_of_next hh hf hd (exec_eq_run hi s)] at h
          cases h
          exact .inr (.inr ⟨i, _, rfl, exec_eq_run hi s, rfl⟩)
        | false =>
          obtain ⟨r, hr⟩ := exec_refused hi
          rw [step_of_refused hh hf hd (hr s)] at h
          cases h

/-- Settles O55. -/
theorem invariantAfterReset : Obligations.InvariantAfterReset := by
  unfold Obligations.InvariantAfterReset
  exact fun c =>
    { memory := Memory.wf_nil
      ram := getX_resetWith c 13
      scratch := rfl
      weekdayMask := .inl (getX_resetWith c 10)
      alarmMinutes := fun j _ => .inl (getX_resetWith c j)
      alarmHours := fun j _ => .inl (getX_resetWith c j)
      beforeInit := fun _ => ⟨rfl, rfl, rfl⟩
      slave := by simp [State.resetWith]
      shape := by simp [State.resetWith]
      counted := rfl }

/-- Settles O56, by what a step can have done. -/
theorem everyStepKeepsTheInvariant : Obligations.EveryStepKeepsTheInvariant := by
  unfold Obligations.EveryStepKeepsTheInvariant
  intro s t hinv h
  obtain rfl | ⟨hs, rfl⟩ | ⟨i, u, hs, hu, rfl⟩ := step_cases h
  · exact hinv
  · exact hinv.finish hs .errOp
  · exact hinv.exec hs hu

end Sys2Proof.Machine
end

section
/-! The control registers (10_state.md R17, R19). A register is rewritten from what was read of it: a property of its
content that every assignment of its mirror byte keeps is kept on the device, by the plan's order of load, assignment and
write (`Plan.defined`). -/

namespace Sys2Proof.Machine

/-! ### A register through the mirror and back -/

/-- A register read is loaded as it was, unless the environment changed it. -/
theorem getX_setXs_readAll {as : List RegIndex} {a : RegIndex} (ha : a ∈ as) (s : State) (m : Memory)
    {gaps : List Updates} (hg : ∀ g ∈ gaps, ∀ p ∈ g, p.1 ≠ a) : (s.setXs as (m.readAll as gaps)).getX a = m.read a := by
  induction as generalizing s m gaps with
  | nil => simp at ha
  | cons c as ih =>
    have hfirst : (m.drift (gaps.headD [])).read a = m.read a := by
      cases gaps with
      | nil => rfl
      | cons g gaps => exact Memory.read_drift_of_ne m (hg g (by simp))
    rw [Memory.readAll_cons, State.setXs_cons]
    by_cases hm : a ∈ as
    · rw [ih hm _ _ fun g hm => hg g (List.mem_of_mem_tail hm), hfirst]
    · obtain rfl : a = c := (List.mem_cons.mp ha).resolve_right hm
      rw [State.getX_setXs_of_not_mem _ hm, State.getX_setX_same, hfirst]

/-- A register written, or left by a write that failed before it, holds what it held or its mirror byte. -/
theorem Memory.read_writeAll_take {m : Memory} (hm : m.wf = true) (as : List RegIndex) (g : RegIndex → Byte) (n : Nat)
    {gaps : List Updates} {a : RegIndex} (hg : ∀ l ∈ gaps, ∀ p ∈ l, p.1 ≠ a) :
    (m.writeAll as ((as.map g).take n) gaps).read a = m.read a ∨
      (a ∈ as ∧ (m.writeAll as ((as.map g).take n) gaps).read a = g a) := by
  induction as generalizing m n gaps with
  | nil => simp
  | cons c as ih =>
    cases n with
    | zero => simp
    | succ n =>
      have hfirst : (m.drift (gaps.headD [])).read a = m.read a := by
        cases gaps with
        | nil => rfl
        | cons l gaps => exact Memory.read_drift_of_ne m (hg l (by simp))
      have hwf := Memory.wf_drift hm (gaps.headD [])
      have hrest := ih (Memory.wf_write hwf c (g c)) n fun l hl => hg l (List.mem_of_mem_tail hl)
      rw [List.map_cons, List.take_succ_cons, Memory.writeAll_cons]
      rw [Memory.read_write hwf] at hrest
      obtain hsame | ⟨hmem, hbyte⟩ := hrest
      · rw [hsame]
        split
        · next e => exact .inr ⟨by simp [e], by rw [e]⟩
        · exact .inl hfirst
      · exact .inr ⟨by simp [hmem], hbyte⟩

/-! ### A property of a register -/

/-- An assignment of the mirror byte `i` keeps `Q`. -/
def Op.Preserves (i : RegIndex) (c : Cfg) (Q : Byte → Prop) : Op → Prop
  | .begin _ => True
  | .sterr _ => True
  | .put j v => j = i → Q (v c)
  | .modify j f => j = i → ∀ b, Q b → Q (f c b)
  | .read _ => True
  | .write _ => True

/-- In the state `t` of a run from `s`, the register `i` has `Q`, and so has its mirror byte once it is known, unless the
environment changed the register. -/
structure Carried (i : RegIndex) (Q : Byte → Prop) (s : State) (known : List RegIndex) (t : State) : Prop where
  since : Since s t
  cfg : t.cfg = s.cfg
  wf : t.mem.wf = true
  device : undrifted s (issuedSince s t) i → Q (t.mem.read i)
  mirror : i ∈ known → undrifted s (issuedSince s t) i → Q (t.getX i)

section Carried

variable {i : RegIndex} {Q : Byte → Prop} {s t : State} {known : List RegIndex} (h : Carried i Q s known t)
include h

theorem Carried.finish (o : CmdOutcome) : Carried i Q s known (t.finish o) :=
  ⟨⟨h.since.upcoming, h.since.longer⟩, h.cfg, h.wf, h.device, h.mirror⟩

theorem Carried.hang : Carried i Q s known t.hang :=
  ⟨⟨h.since.upcoming, h.since.longer⟩, h.cfg, h.wf, h.device, h.mirror⟩

theorem Carried.beginInit (addr : Option SlaveAddr) : Carried i Q s known (t.beginInit addr) :=
  ⟨⟨h.since.upcoming, h.since.longer⟩, h.cfg, h.wf, h.device, h.mirror⟩

theorem Carried.setSterr (v : Bool) : Carried i Q s known (t.setSterr v) :=
  ⟨⟨h.since.upcoming, h.since.longer⟩, h.cfg, h.wf, h.device, h.mirror⟩

theorem Carried.mono {fewer : List RegIndex} (hk : ∀ j ∈ fewer, j ∈ known) : Carried i Q s fewer t :=
  ⟨h.since, h.cfg, h.wf, h.device, fun hi => h.mirror (hk i hi)⟩

theorem Carried.setX {j : RegIndex} {v : Byte} (hv : j = i → undrifted s (issuedSince s t) i → Q v) :
    Carried i Q s (j :: known) (t.setX j v) := by
  refine ⟨⟨h.since.upcoming, h.since.longer⟩, h.cfg, h.wf, h.device, fun hi hu => ?_⟩
  by_cases hji : j = i
  · subst hji
    rw [State.getX_setX_same]
    exact hv rfl hu
  · rw [State.getX_setX_ne t (Ne.symm hji)]
    exact h.mirror ((List.mem_cons.mp hi).resolve_left (Ne.symm hji)) hu

/-- A transfer leaves the property with the register when it leaves it with what the transfer leaves. -/
theorem Carried.issue (kd : TransferKind) (sp : Span) (bs : List Byte) {m : Memory} (hwf : m.wf = true)
    (hm : (∀ p ∈ (t.upcoming 0).changes, p.1 ≠ i) → undrifted s (issuedSince s t) i → Q (m.read i)) :
    Carried i Q s known (t.issue kd sp bs m) := by
  refine ⟨h.since.issue kd sp bs m, h.cfg, hwf, fun hu => ?_, fun hi hu => ?_⟩
  · obtain ⟨hbefore, hlast⟩ := h.since.undrifted_issue hu
    exact hm hlast hbefore
  · obtain ⟨hbefore, -⟩ := h.since.undrifted_issue hu
    exact h.mirror hi hbefore

theorem Carried.issue_read (sp : Span) (bs : List Byte) {m : Memory} (hwf : m.wf = true)
    (hm : (∀ p ∈ (t.upcoming 0).changes, p.1 ≠ i) → m.read i = t.mem.read i) :
    Carried i Q s known (t.issue .read sp bs m) :=
  h.issue .read sp bs hwf fun hc hu => (hm hc).symm ▸ h.device hu

/-- An answered read makes the bytes of its span known, as the registers hold them. -/
theorem Carried.load (sp : Span) : Carried i Q s (sp.indices ++ known)
    ((t.issue .read sp (t.readBytes sp) (t.passed sp)).setXs sp.indices (t.readBytes sp)) := by
  have hissued := h.issue_read sp (t.readBytes sp) (State.wf_passed h.wf sp) fun hc => State.read_passed hc sp
  refine ⟨hissued.since.setXs _ _, by simpa using hissued.cfg, by simpa using hissued.wf, fun hu => ?_, fun hi hu => ?_⟩
  · rw [State.setXs_mem]
    exact hissued.device (by simpa [issuedSince] using hu)
  · have hu : undrifted s (issuedSince s (t.issue .read sp (t.readBytes sp) (t.passed sp))) i := by
      simpa [issuedSince] using hu
    by_cases hsp : i ∈ sp.indices
    · obtain ⟨hbefore, hlast⟩ := h.since.undrifted_issue hu
      rw [State.readBytes, getX_setXs_readAll hsp _ _ fun g hg p hp => hlast p (gapsOf_changes hg p hp),
        State.read_found hlast]
      exact h.device hbefore
    · rw [State.getX_setXs_of_not_mem _ hsp]
      exact hissued.mirror ((List.mem_append.mp hi).resolve_left hsp) hu

/-- A write of bytes known, or of some of them, leaves the property with the register. -/
theorem Carried.store {sp : Span} (hsp : ∀ j ∈ sp.indices, j ∈ known) (n : Nat) :
    Carried i Q s known (t.issue .write sp (t.getXs sp.indices) (t.delivered sp ((t.getXs sp.indices).take n))) := by
  refine h.issue .write sp _ (State.wf_delivered h.wf sp _) fun hc hu => ?_
  obtain hsame | ⟨hmem, hbyte⟩ := Memory.read_writeAll_take (State.wf_found h.wf) sp.indices t.getX n (a := i)
    fun l hl p hp => hc p (gapsOf_changes hl p hp)
  · rw [State.delivered, State.getXs, hsame, State.read_found hc]
    exact h.device hu
  · rw [State.delivered, State.getXs, hbyte]
    exact h.mirror (hsp i hmem) hu

end Carried

/-- A plan whose bytes are known where it uses them, and whose assignments keep `Q`, keeps `Q` of the register. -/
theorem Carried.run {i : RegIndex} {Q : Byte → Prop} {s t : State} {known : List RegIndex} {p : Plan}
    (h : Carried i Q s known t) (hp : p.defined known = true) (hops : ∀ op ∈ p.ops, op.Preserves i s.cfg Q) :
    Carried i Q s known (p.run t) := by
  induction p generalizing t known with
  | stop is o => exact h.finish _
  | ifInited yes no ihy ihn =>
    simp only [Plan.defined, Bool.and_eq_true] at hp
    obtain ⟨hpyes, hpno⟩ := hp
    obtain ⟨hyes, hno⟩ := List.forall_mem_append.mp hops
    simp only [Plan.run]
    split
    · exact ihy h hpyes hyes
    · exact ihn h hpno hno
  | ifStatus bad good ihb ihg =>
    simp only [Plan.defined, Bool.and_eq_true] at hp
    obtain ⟨⟨-, hpbad⟩, hpgood⟩ := hp
    obtain ⟨hbad, hgood⟩ := List.forall_mem_append.mp hops
    simp only [Plan.run]
    split
    · exact ihb h hpbad hbad
    · exact ihg h hpgood hgood
  | byShape two one iht iho =>
    simp only [Plan.defined, Bool.and_eq_true] at hp
    obtain ⟨hptwo, hpone⟩ := hp
    obtain ⟨htwo, hone⟩ := List.forall_mem_append.mp hops
    simp only [Plan.run]
    split
    · exact iht h hptwo htwo
    · exact iho h hpone hone
  | begin addr next ih =>
    obtain ⟨-, hnext⟩ := List.forall_mem_cons.mp hops
    exact ih (h.beginInit addr) hp hnext
  | sterr v next ih =>
    obtain ⟨-, hnext⟩ := List.forall_mem_cons.mp hops
    exact ih (h.setSterr v) hp hnext
  | put j v next ih =>
    obtain ⟨hop, hnext⟩ := List.forall_mem_cons.mp hops
    have hput : Carried i Q s (j :: known) (t.setX j (v t.cfg)) := h.setX fun hj _ => h.cfg.symm ▸ hop hj
    exact (ih hput hp hnext).mono fun k hk => List.mem_cons_of_mem j hk
  | modify j f next ih =>
    simp only [Plan.defined, Bool.and_eq_true, List.contains_iff_mem] at hp
    obtain ⟨hknown, hp⟩ := hp
    obtain ⟨hop, hnext⟩ := List.forall_mem_cons.mp hops
    have hmodify : Carried i Q s (j :: known) (t.setX j (f t.cfg (t.getX j))) := by
      refine h.setX fun hj hu => ?_
      subst hj
      exact h.cfg.symm ▸ hop rfl _ (h.mirror hknown hu)
    exact ih (hmodify.mono fun k hk => List.mem_cons_of_mem j hk) hp hnext
  | read sp next ih =>
    obtain ⟨-, hnext⟩ := List.forall_mem_cons.mp hops
    have hcut := h.issue_read sp [] (State.wf_found h.wf) State.read_found
    exact State.memRead_ind (fun _ => (ih (h.load sp) hp hnext).mono fun k hk => List.mem_append_right _ hk)
      (fun _ _ => hcut.finish _) (fun _ _ => hcut.hang)
  | write sp next ih =>
    simp only [Plan.defined, Bool.and_eq_true, List.all_eq_true, List.contains_iff_mem] at hp
    obtain ⟨hsp, hp⟩ := hp
    obtain ⟨-, hnext⟩ := List.forall_mem_cons.mp hops
    refine State.memWrite_ind (fun _ => ih ?_ hp hnext) (fun n _ => (h.store hsp n).finish _)
      (fun n _ => (h.store hsp n).hang)
    simpa using h.store hsp (t.getXs sp.indices).length

/-- What a command keeps of a register, unless the environment changes it. -/
theorem read_of_exec {i : Instr} {s t : State} (h : exec i s = .next t) (hwf : s.mem.wf = true) {a : RegIndex}
    (ha : a ≠ 10) (hu : undrifted s (issuedSince s t) a) {Q : Byte → Prop} (hQ : Q (s.mem.read a))
    (hops : ∀ op ∈ (planOf i).ops, op.Preserves a s.cfg Q) : Q (t.mem.read a) := by
  rw [eq_run_of_exec h] at hu ⊢
  have hstart : Carried a Q s [10] s :=
    ⟨.refl s, rfl, hwf, fun _ => hQ, fun hmem => absurd (List.mem_singleton.mp hmem) ha⟩
  exact (hstart.run (planOf_defined i) hops).device hu

/-! ### What the commands assign to the control registers -/

/-- The assignments a command makes to the mirror's control bytes (10_state.md R17, R19): INIT's zeros, a field of
Control1 set or cleared, the selector by CTMODE, a flag of Control2 cleared. -/
def Op.ControlRule (i : Instr) : Op → Prop
  | .begin _ => True
  | .sterr _ => True
  | .put j v => j = 14 ∨ j = 15 → i.isInit = true ∧ ∀ c, v c = 0x00
  | .modify j f =>
    (j = 14 ∧ (f ∈ [setDale, clearDale, setWale, clearWale] ∨ ∃ mode, i = .ctmode mode ∧ f = fun c b => ctSel c b mode)) ∨
      (j = 15 ∧ f ∈ [vdetClr, clearDafg, clearWafg])
  | .read _ => True
  | .write _ => True

theorem planOf_controlRule (i : Instr) : ∀ op ∈ (planOf i).ops, op.ControlRule i := by
  cases i with
  | bcd2dec b => simp [planOf, Plan.result, Plan.ops]
  | dec2bcd d => simp [planOf, Plan.result, Plan.ops]
  | wday date month year4 => simp [planOf, Plan.result, Plan.ops]
  | ofsdec b => simp [planOf, Plan.result, Plan.ops]
  | ofsenc v => simp [planOf, Plan.result, Plan.ops]
  | regaddr idx => simp [planOf, Plan.result, Plan.ops]
  | init addr => simp [planOf, Plan.initBody, Plan.result, Plan.ops, Op.ControlRule, Instr.isInit, Instr.opcode]
  | rddt => simp [planOf, Plan.device, Plan.result, Plan.ops, Op.ControlRule]
  | wrdt se mi h d mo y wd =>
    simp only [planOf]
    split
    · simp [Plan.device, Plan.result, Plan.ops]
    · simp [Plan.device, Plan.putDatetime, Plan.result, Plan.ops, Op.ControlRule]
  | ofsget => simp [planOf, Plan.device, Plan.result, Plan.ops, Op.ControlRule]
  | ofsset v =>
    simp only [planOf]
    split
    · simp [Plan.device, Plan.result, Plan.ops, Op.ControlRule]
    · simp [Plan.device, Plan.result, Plan.ops]
  | ctmode mode => simp [planOf, Plan.device, Plan.result, Plan.ops, Op.ControlRule]
  | dalmset hours minutes =>
    simp only [planOf]
    split
    · simp [Plan.device, Plan.result, Plan.ops, Op.ControlRule]
    · simp [Plan.device, Plan.rewriteControl, Plan.putTime, Plan.result, Plan.ops, Op.ControlRule]
  | dalmclr => simp [planOf, Plan.device, Plan.rewriteControl, Plan.putTime, Plan.result, Plan.ops, Op.ControlRule]
  | dalmrst => simp [planOf, Plan.device, Plan.rewriteControl, Plan.result, Plan.ops, Op.ControlRule]
  | walmset hours minutes wdmask =>
    simp only [planOf, Plan.putMask]
    split
    · simp [Plan.device, Plan.result, Plan.ops, Op.ControlRule]
    · split <;>
        simp [Plan.device, Plan.rewriteControl, Plan.putTime, Plan.result, Plan.ops, Op.ControlRule]
  | walmclr => simp [planOf, Plan.device, Plan.rewriteControl, Plan.putTime, Plan.result, Plan.ops, Op.ControlRule]
  | walmrst => simp [planOf, Plan.device, Plan.rewriteControl, Plan.result, Plan.ops, Op.ControlRule]

/-! ### The bits outside the fields assigned -/

/-- The other bits of a replaced byte, for every mask disjoint from the field's. -/
theorem fmux_and_of_disjoint {m k : Byte} (h : m &&& k = 0) (r f : Byte) : fmux r m f &&& k = r &&& k := by
  refine BitVec.eq_of_getLsbD_eq fun j hj => ?_
  have hbit : (m.getLsbD j && k.getLsbD j) = false := by
    rw [← BitVec.getLsbD_and, h]
    exact BitVec.getLsbD_zero
  rw [BitVec.getLsbD_and, BitVec.getLsbD_and, getLsbD_fmux r m f hj]
  cases hm : m.getLsbD j with
  | false => simp
  | true =>
    have hk : k.getLsbD j = false := by simpa [hm] using hbit
    simp [hk]

theorem fset_and_of_disjoint {m k : Byte} (h : m &&& k = 0) (r : Byte) : fset r m &&& k = r &&& k :=
  fset_eq_fmux r m ▸ fmux_and_of_disjoint h r 0xFF

theorem fclr_and_of_disjoint {m k : Byte} (h : m &&& k = 0) (r : Byte) : fclr r m &&& k = r &&& k :=
  fclr_eq_fmux r m ▸ fmux_and_of_disjoint h r 0x00

theorem ctSel_and_of_disjoint {c : Cfg} {k : Byte} (h : c.ctMask &&& k = 0) (r : Byte) (mode : Option ModeCode) :
    ctSel c r mode &&& k = r &&& k := by
  cases mode with
  | none => exact fclr_and_of_disjoint h r
  | some code =>
    simp only [ctSel]
    split
    · exact fmux_and_of_disjoint h r _
    · exact fclr_and_of_disjoint h r

/-- A byte with no bit outside `old` has none after a field of it is cleared. -/
theorem fclr_and_not_eq_zero {r old : Byte} (h : r &&& ~~~old = 0) (m : Byte) : fclr r m &&& ~~~old = 0 := by
  rw [fclr, BitVec.and_assoc, BitVec.and_comm (~~~m), ← BitVec.and_assoc, h]
  exact BitVec.zero_and

theorem and_or_eq_zero (m a b : Byte) : m &&& (a ||| b) = 0 ↔ m &&& a = 0 ∧ m &&& b = 0 := by
  rw [BitVec.and_or_distrib_left]
  exact BitVec.or_eq_zero_iff

/-- The masks of a well-formed configuration are disjoint (00_scope.md R4). -/
theorem disjoint_of_wf {c : Cfg} (h : c.wf = true) :
    c.control1Masks.Pairwise (fun a b => a &&& b = 0) ∧ c.control2Masks.Pairwise (fun a b => a &&& b = 0) := by
  simp only [Cfg.wf, fillByte, Bool.and_eq_true, decide_eq_true_eq] at h
  obtain ⟨⟨⟨⟨⟨⟨⟨h1, -⟩, -⟩, h2, -⟩, -⟩, -⟩, -⟩, -⟩ := h
  exact ⟨h1, h2⟩

/-- The bits of Control1 under `k` are kept by every command whose fields of Control1 are outside `k`. -/
theorem preserves_control1 {i : Instr} {c : Cfg} {k old : Byte} (hi : i.isInit = false) (hwale : c.mWale &&& k = 0)
    (hdale : c.mDale &&& k = 0) (hmode : c.ctMask &&& k = 0 ∨ ∀ mode, i ≠ .ctmode mode) :
    ∀ op ∈ (planOf i).ops, op.Preserves 14 c fun b => b &&& k = old &&& k := by
  intro op hop
  have hrule := planOf_controlRule i op hop
  cases op with
  | put j v =>
    intro hj
    obtain ⟨hinit, -⟩ := hrule (.inl hj)
    simp [hi] at hinit
  | modify j f =>
    rintro rfl b hb
    obtain ⟨-, hf | ⟨mode, rfl, rfl⟩⟩ | ⟨hj, -⟩ := hrule
    · simp only [List.mem_cons, List.not_mem_nil, or_false] at hf
      obtain rfl | rfl | rfl | rfl := hf
      · exact (fset_and_of_disjoint hdale b).trans hb
      · exact (fclr_and_of_disjoint hdale b).trans hb
      · exact (fset_and_of_disjoint hwale b).trans hb
      · exact (fclr_and_of_disjoint hwale b).trans hb
    · exact (ctSel_and_of_disjoint (hmode.resolve_right fun hne => hne mode rfl) b mode).trans hb
    · exact absurd hj (by decide)
  | _ => trivial

/-- Settles O53: each field assigned is disjoint from the ones kept. -/
theorem control1KeepsTheFieldsNoCommandSets : Obligations.Control1KeepsTheFieldsNoCommandSets := by
  unfold Obligations.Control1KeepsTheFieldsNoCommandSets
  intro i s t h hwf hu hcfg hi
  obtain ⟨hmasks, -⟩ := disjoint_of_wf hcfg
  simp only [Cfg.control1Masks, List.pairwise_cons, List.forall_mem_cons] at hmasks
  obtain ⟨⟨-, hwDbsl, hwEden, hwTest, hwCt, -⟩, ⟨hdDbsl, hdEden, hdTest, hdCt, -⟩, ⟨-, -, hDbslCt, -⟩, ⟨-, hEdenCt, -⟩,
    ⟨hTestCt, -⟩, -⟩ := hmasks
  refine ⟨read_of_exec h hwf (by decide) hu (Q := fun b => b &&& _ = _ &&& _) rfl (preserves_control1 hi ?_ ?_ (.inl ?_)),
    fun hop => read_of_exec h hwf (by decide) hu (Q := fun b => b &&& _ = _ &&& _) rfl
      (preserves_control1 hi hwCt hdCt (.inr ?_))⟩
  · simp only [and_or_eq_zero]
    exact ⟨⟨hwDbsl, hwEden⟩, hwTest⟩
  · simp only [and_or_eq_zero]
    exact ⟨⟨hdDbsl, hdEden⟩, hdTest⟩
  · simp only [and_or_eq_zero]
    exact ⟨⟨(BitVec.and_comm _ _).trans hDbslCt, (BitVec.and_comm _ _).trans hEdenCt⟩, (BitVec.and_comm _ _).trans hTestCt⟩
  · rintro mode rfl
    exact hop rfl

/-- A property of Control2 that clearing any of the three flags keeps is kept by every command. -/
theorem preserves_control2 {i : Instr} {c : Cfg} {Q : Byte → Prop} (hzero : i.isInit = true → Q 0x00)
    (hclear : ∀ m ∈ [c.mVdet, c.mDafg, c.mWafg], ∀ b, Q b → Q (fclr b m)) :
    ∀ op ∈ (planOf i).ops, op.Preserves 15 c Q := by
  intro op hop
  have hrule := planOf_controlRule i op hop
  cases op with
  | put j v =>
    intro hj
    obtain ⟨hinit, hv⟩ := hrule (.inr hj)
    exact hv c ▸ hzero hinit
  | modify j f =>
    rintro rfl b hb
    obtain ⟨hj, -⟩ | ⟨-, hf⟩ := hrule
    · exact absurd hj (by decide)
    · simp only [List.mem_cons, List.not_mem_nil, or_false] at hf
      obtain rfl | rfl | rfl := hf
      · exact hclear c.mVdet (by simp) b hb
      · exact hclear c.mDafg (by simp) b hb
      · exact hclear c.mWafg (by simp) b hb
  | _ => trivial

/-- Settles O52: a flag of Control2 is only ever cleared, and the flags cleared are disjoint from the fields kept. -/
theorem control2BitsAreNeverSet : Obligations.Control2BitsAreNeverSet := by
  unfold Obligations.Control2BitsAreNeverSet
  intro i s t h hwf hu
  refine ⟨?neverSet, fun hcfg hi => ?kept⟩
  case neverSet =>
    refine read_of_exec h hwf (by decide) hu (Q := fun b => b &&& ~~~(s.mem.read 15) = 0) (by simp)
      (preserves_control2 (fun _ => by simp) fun m _ b hb => fclr_and_not_eq_zero hb m)
  case kept =>
    obtain ⟨-, hmasks⟩ := disjoint_of_wf hcfg
    simp only [Cfg.control2Masks, List.pairwise_cons, List.forall_mem_cons] at hmasks
    obtain ⟨⟨hBankV, -, -, -, -, hBankW, hBankD, -⟩, ⟨hVX, hVP, hVE, hVC, -⟩, ⟨-, -, -, hXW, hXD, -⟩, ⟨-, -, hPW, hPD, -⟩,
      ⟨-, hEW, hED, -⟩, ⟨hCW, hCD, -⟩, -⟩ := hmasks
    have hdisjoint : ∀ m ∈ [s.cfg.mVdet, s.cfg.mDafg, s.cfg.mWafg],
        m &&& (s.cfg.mBank ||| s.cfg.mXstp ||| s.cfg.mPon ||| s.cfg.mEdfg ||| s.cfg.mCtfg) = 0 := by
      have hswap : ∀ {a b : Byte}, a &&& b = 0 → b &&& a = 0 := fun h => (BitVec.and_comm _ _).trans h
      simp only [List.forall_mem_cons, and_or_eq_zero]
      exact ⟨⟨⟨⟨⟨hswap hBankV, hVX⟩, hVP⟩, hVE⟩, hVC⟩,
        ⟨⟨⟨⟨hswap hBankD, hswap hXD⟩, hswap hPD⟩, hswap hED⟩, hswap hCD⟩,
        ⟨⟨⟨⟨hswap hBankW, hswap hXW⟩, hswap hPW⟩, hswap hEW⟩, hswap hCW⟩, by simp⟩
    exact read_of_exec h hwf (by decide) hu (Q := fun b => b &&& _ = _ &&& _) rfl (preserves_control2
      (fun hinit => by simp [hi] at hinit) fun m hm b hb => (fclr_and_of_disjoint (hdisjoint m hm) b).trans hb)

end Sys2Proof.Machine
end

section
/-! Running a plan symbolically. Along a path the state is its block (mirror, `sa`, `inited`, `sterr`) with a number of
events used, the device registers and the transfers so far: `State.mid`. One equation per node of a plan says where the
plan goes on from there. -/

namespace Sys2Proof.Machine

/-! ### Assignments of mirror bytes -/

theorem State.setX_setX_same (s : State) (i : RegIndex) (v w : Byte) : (s.setX i v).setX i w = s.setX i w := by
  simp [State.setX]

theorem State.setX_comm (s : State) {i j : RegIndex} (h : i ≠ j) (v w : Byte) :
    (s.setX i v).setX j w = (s.setX j w).setX i v := by
  simp only [State.setX]
  rw [Vector.set_comm _ _ fun e => h (Fin.ext e)]

theorem State.setX_getX (s : State) (i : RegIndex) : s.setX i (s.getX i) = s := by
  simp [State.setX, State.getX, Vector.get_eq_getElem]

/-- An assignment outside a span may come before or after the load of the span. -/
theorem State.setXs_setX (s : State) {is : List RegIndex} {j : RegIndex} (h : j ∉ is) (bs : List Byte) (v : Byte) :
    (s.setXs is bs).setX j v = (s.setX j v).setXs is bs := by
  induction is generalizing s bs with
  | nil => simp
  | cons i is ih =>
    cases bs with
    | nil => simp
    | cons b bs =>
      rw [State.setXs_cons, State.setXs_cons, ih _ fun hm => h (List.mem_cons_of_mem i hm),
        State.setX_comm s fun e => h (by simp [e])]

/-- The bytes of a span are the ones loaded. -/
theorem State.getXs_setXs (s : State) {is : List RegIndex} {bs : List Byte} (hnodup : is.Nodup)
    (hlen : bs.length = is.length) : (s.setXs is bs).getXs is = bs := by
  induction is generalizing s bs with
  | nil => simp [State.getXs, List.length_eq_zero_iff.mp hlen]
  | cons i is ih =>
    cases bs with
    | nil => simp at hlen
    | cons b bs =>
      obtain ⟨hi, hnodup⟩ := List.nodup_cons.mp hnodup
      have hrest := ih (s.setX i b) (bs := bs) hnodup (by simpa using hlen)
      rw [State.setXs_cons, State.getXs, List.map_cons, State.getX_setXs_of_not_mem _ hi, State.getX_setX_same]
      exact congrArg (b :: ·) hrest

/-! ### On the way -/

/-- `s` after `n` events have been used, with device registers `m` and the transfers `ts` issued. -/
def State.mid (s : State) (n : Nat) (m : Memory) (ts : List Transfer) : State :=
  { s.consume n with mem := m, bus := s.bus ++ ts }

theorem State.mid_zero (s : State) : s.mid 0 s.mem [] = s := by
  rw [State.mid, State.consume_zero, List.append_nil]

section Mid

variable (s : State) (n : Nat) (m : Memory) (ts : List Transfer)

@[simp] theorem State.mid_cfg : (s.mid n m ts).cfg = s.cfg := rfl
@[simp] theorem State.mid_mem : (s.mid n m ts).mem = m := rfl
@[simp] theorem State.mid_getX (i : RegIndex) : (s.mid n m ts).getX i = s.getX i := rfl
@[simp] theorem State.mid_getXs (is : List RegIndex) : (s.mid n m ts).getXs is = s.getXs is := rfl

@[simp] theorem State.mid_upcoming (k : Nat) : (s.mid n m ts).upcoming k = s.upcoming (n + k) :=
  State.upcoming_consume s n k

@[simp] theorem State.mid_found : (s.mid n m ts).found = m.drift (s.upcoming n).drift := by
  rw [State.found, State.mid_upcoming]
  rfl

theorem State.mid_setXs (is : List RegIndex) (bs : List Byte) :
    (s.mid n m ts).setXs is bs = (s.setXs is bs).mid n m ts := by
  induction is generalizing s bs with
  | nil => simp
  | cons i is ih =>
    cases bs with
    | nil => simp
    | cons b bs => exact ih (s.setX i b) bs

theorem State.mid_issue (kd : TransferKind) (sp : Span) (bs : List Byte) (m' : Memory) :
    (s.mid n m ts).issue kd sp bs m' = s.mid (n + 1) m' (ts ++ [⟨kd, s.sa, sp.wire, sp.count, bs⟩]) := by
  have hconsume := State.consume_consume s n 1
  simp only [State.consume, State.mk.injEq, true_and, and_true] at hconsume
  obtain ⟨henv, hdraws⟩ := hconsume
  simp only [State.mid, State.issue, State.consume, List.append_assoc, State.mk.injEq, true_and, and_true]
  exact ⟨henv, hdraws⟩

end Mid

/-- What a path ends with takes from its block but the mirror, the same before and after an assignment. -/
theorem State.after_setX (s : State) (i : RegIndex) (v : Byte) (n : Nat) (x : Vector Byte 16) (m : Memory)
    (ts : List Transfer) (o : CmdOutcome) : (s.setX i v).after n x m ts o = s.after n x m ts o := rfl

theorem State.after_setXs (s : State) (is : List RegIndex) (bs : List Byte) (n : Nat) (x : Vector Byte 16) (m : Memory)
    (ts : List Transfer) (o : CmdOutcome) : (s.setXs is bs).after n x m ts o = s.after n x m ts o := by
  rw [State.setXs_eq]
  rfl

/-! ### One equation per node -/

section Run

variable {s : State} {n : Nat} {m : Memory} {ts : List Transfer} {next : Plan} {sp : Span}

theorem Plan.run_result (o : CmdOutcome) : (Plan.result o).run (s.mid n m ts) = s.after n s.x m ts o := rfl

theorem Plan.run_stop (is : List RegIndex) (o : List Byte → CmdOutcome) :
    (Plan.stop is o).run (s.mid n m ts) = s.after n s.x m ts (o (s.getXs is)) := rfl

theorem Plan.run_put (i : RegIndex) (v : Cfg → Byte) :
    (Plan.put i v next).run (s.mid n m ts) = next.run ((s.setX i (v s.cfg)).mid n m ts) := rfl

theorem Plan.run_modify (i : RegIndex) (f : Cfg → Byte → Byte) :
    (Plan.modify i f next).run (s.mid n m ts) = next.run ((s.setX i (f s.cfg (s.getX i))).mid n m ts) := rfl

theorem Plan.run_begin (addr : Option SlaveAddr) :
    (Plan.begin addr next).run (s.mid n m ts) = next.run ((s.beginInit addr).mid n m ts) := rfl

theorem Plan.run_sterr (v : Bool) :
    (Plan.sterr v next).run (s.mid n m ts) = next.run ((s.setSterr v).mid n m ts) := rfl

/-- An answered read loads the mirror, and the plan goes on. -/
theorem Plan.run_read_done (h : (s.upcoming n).answer = .done) :
    (Plan.read sp next).run (s.mid n m ts) =
      next.run ((s.setXs sp.indices ((s.mid n m ts).readBytes sp)).mid (n + 1) ((s.mid n m ts).passed sp)
        (ts ++ [.rd s.sa sp.wire sp.count ((s.mid n m ts).readBytes sp)])) := by
  rw [Plan.run, State.memRead_done _ _ _ (by simpa using h), State.mid_issue, State.mid_setXs]
  rfl

theorem Plan.run_read_failed {d : Nat} (h : (s.upcoming n).answer = .failed d) :
    (Plan.read sp next).run (s.mid n m ts) =
      s.after (n + 1) s.x (m.drift (s.upcoming n).drift) (ts ++ [.rd s.sa sp.wire sp.count []]) .errBus := by
  rw [Plan.run, State.memRead_failed _ _ _ (by simpa using h), State.mid_issue, State.mid_found]
  rfl

/-- An answered write has delivered the mirror's bytes, and the plan goes on. -/
theorem Plan.run_write_done (h : (s.upcoming n).answer = .done) :
    (Plan.write sp next).run (s.mid n m ts) =
      next.run (s.mid (n + 1) ((s.mid n m ts).delivered sp (s.getXs sp.indices))
        (ts ++ [.wr s.sa sp.wire sp.count (s.getXs sp.indices)])) := by
  rw [Plan.run, State.memWrite_done _ _ _ (by simpa using h), State.mid_issue]
  rfl

theorem Plan.run_write_failed {d : Nat} (h : (s.upcoming n).answer = .failed d) :
    (Plan.write sp next).run (s.mid n m ts) =
      s.after (n + 1) s.x ((s.mid n m ts).delivered sp ((s.getXs sp.indices).take d))
        (ts ++ [.wr s.sa sp.wire sp.count (s.getXs sp.indices)]) .errBus := by
  rw [Plan.run, State.memWrite_failed _ _ _ (by simpa using h), State.mid_issue]
  rfl

end Run

/-- A device command after INIT is its body. -/
theorem exec_device {i : Instr} {s : State} {body : Plan} (hs : s.inited = true) (hi : i.inDomain = true)
    (hplan : planOf i = .device body) : exec i s = .next (body.run (s.mid 0 s.mem [])) := by
  rw [exec_eq_run hi, hplan, State.mid_zero, Plan.device, Plan.run, if_pos hs]

/-! ### The spans -/

@[simp] theorem Span.wire_datetime : Span.datetime.wire = 0x00 := rfl
@[simp] theorem Span.wire_offset : Span.offset.wire = 0x70 := rfl
@[simp] theorem Span.wire_control1 : Span.control1.wire = 0xE0 := rfl
@[simp] theorem Span.wire_control : Span.control.wire = 0xE0 := rfl
@[simp] theorem Span.wire_control2 : Span.control2.wire = 0xF0 := rfl

theorem State.readBytes_offset (s : State) : s.readBytes .offset = [s.found.read 7] := rfl
theorem State.readBytes_control1 (s : State) : s.readBytes .control1 = [s.found.read 14] := rfl
theorem State.readBytes_control2 (s : State) : s.readBytes .control2 = [s.found.read 15] := rfl
theorem State.passed_offset (s : State) : s.passed .offset = s.found := rfl
theorem State.passed_control1 (s : State) : s.passed .control1 = s.found := rfl
theorem State.passed_control2 (s : State) : s.passed .control2 = s.found := rfl

theorem State.delivered_offset (s : State) (bs : List Byte) : s.delivered .offset bs = s.found.writeAll [7] bs [] :=
  Memory.writeAll_one _ _ _ _
theorem State.delivered_control1 (s : State) (bs : List Byte) : s.delivered .control1 bs = s.found.writeAll [14] bs [] :=
  Memory.writeAll_one _ _ _ _
theorem State.delivered_control2 (s : State) (bs : List Byte) : s.delivered .control2 bs = s.found.writeAll [15] bs [] :=
  Memory.writeAll_one _ _ _ _

/-! ### The offset commands -/

/-- Settles O29: one read, answered or failed. -/
theorem ofsgetReturnsTheSignedTrim : Obligations.OfsgetReturnsTheSignedTrim := by
  unfold Obligations.OfsgetReturnsTheSignedTrim
  intro s hs
  have hrun := exec_device (i := .ofsget) hs rfl rfl
  refine ⟨rfl, fun hans => ?answered, fun d hd => ?failed⟩
  case answered =>
    rw [hrun, Plan.run_read_done (hans 0 (by decide)), Plan.run_stop, State.readBytes_offset, State.passed_offset,
      State.mid_found, ← ofsDec_eq_toInt, Span.indices, State.getXs_setXs _ (by decide) rfl]
    rfl
  case failed => rw [hrun, Plan.run_read_failed hd]; rfl

/-- OFSSET of a value in range, past its gate and its check. -/
theorem planOf_ofsset {v : Int} (hlo : -62 ≤ v) (hhi : v ≤ 63) :
    planOf (.ofsset v) = .device (.put 7 (fun _ => ofsEnc v) <| .write .offset <| .result (.ok .empty)) := by
  simp only [planOf, if_pos ((ofsInRange_iff v).mpr ⟨hlo, hhi⟩)]

theorem planOf_ofsset_rejected {v : Int} (h : v < -62 ∨ 63 < v) :
    planOf (.ofsset v) = .device (.result .rejValue) := by
  have hout : ¬ ofsInRange v = true := by
    rw [ofsInRange_iff]
    omega
  simp only [planOf, if_neg hout]

theorem exec_ofsset_rejected {s : State} (hs : s.inited = true) {v : Int} (h : v < -62 ∨ 63 < v) :
    exec (.ofsset v) s = .next (s.finish .rejValue) := by
  rw [exec_device hs rfl (planOf_ofsset_rejected h), State.mid_zero]
  rfl

/-- Settles O30: one write, answered or failed, or none. -/
theorem ofssetWritesOrRejects : Obligations.OfssetWritesOrRejects := by
  unfold Obligations.OfssetWritesOrRejects
  intro s v hs
  rw [← ofsEnc_eq_emod]
  refine ⟨rfl, fun hlo hhi hans => ?answered, fun k hlo hhi hk => ?failed, fun h => exec_ofsset_rejected hs h⟩
  case answered =>
    have h0 := hans 0 (by decide)
    rw [exec_device hs rfl (planOf_ofsset hlo hhi)]
    simp only [Plan.run_put, Plan.run_write_done, Plan.run_result, State.setX_upcoming, h0, State.delivered_offset,
      State.mid_found, Span.indices, State.getXs, List.map_cons, List.map_nil, State.getX_setX_same]
    rfl
  case failed =>
    rw [exec_device hs rfl (planOf_ofsset hlo hhi)]
    simp only [Plan.run_put, Plan.run_write_failed (d := k), State.setX_upcoming, hk, State.delivered_offset,
      State.mid_found, Span.indices, State.getXs, List.map_cons, List.map_nil, State.getX_setX_same]
    rfl

end Sys2Proof.Machine
end

section
/-! The device commands on every path, from the equations of `Plan.run`. -/

namespace Sys2Proof.Machine

/-! ### CTMODE -/

/-- 43_composer.md R135 as one choice. -/
theorem ctSel_eq (c : Cfg) (b : Byte) (mode : Option ModeCode) :
    ctSel c b mode = if mode = some c.ct1Hz ∨ mode = some c.ct2Hz then
      (b &&& ~~~c.ctMask) ||| (ctPlace c (mode.getD 0) &&& c.ctMask) else b &&& ~~~c.ctMask := by
  cases mode with
  | none => simp [ctSel, fclr]
  | some code => simp [ctSel, fmux, fclr]

/-- Settles O34: a read and a write. -/
theorem ctmodeRewritesOnlyTheSelector : Obligations.CtmodeRewritesOnlyTheSelector := by
  unfold Obligations.CtmodeRewritesOnlyTheSelector
  intro s mode hs
  simp only [← ctSel_eq, exec_device (i := .ctmode mode) hs rfl rfl]
  refine ⟨rfl, fun hans => ?answered, fun d hd => ?readFailed, fun d hans hd => ?writeFailed⟩
  case answered =>
    have h0 := hans 0 (by decide)
    have h1 := hans 1 (by decide)
    simp only [Plan.run_read_done, Plan.run_modify, Plan.run_write_done, Plan.run_result, State.setX_upcoming, h0, h1,
      State.readBytes_control1, State.passed_control1, State.delivered_control1, State.mid_found, Span.indices,
      State.getXs, List.map_cons, List.map_nil, State.setXs_cons, State.setXs_nil, State.setX_setX_same,
      State.getX_setX_same, State.setX_cfg, Nat.zero_add]
    rfl
  case readFailed => rw [Plan.run_read_failed hd]; rfl
  case writeFailed =>
    have h0 := hans 0 (by decide)
    simp only [Plan.run_read_done, Plan.run_modify, Plan.run_write_failed (d := d), State.setX_upcoming, h0, hd,
      State.readBytes_control1, State.passed_control1, State.delivered_control1, State.mid_found, Span.indices,
      State.getXs, List.map_cons, List.map_nil, State.setXs_cons, State.setXs_nil, State.setX_setX_same,
      State.getX_setX_same, State.setX_cfg, Nat.zero_add]
    rfl

/-! ### RDDT -/

/-- Settles O25: one read, answered or failed. -/
theorem rddtReturnsTheMaskedTuple : Obligations.RddtReturnsTheMaskedTuple := by
  unfold Obligations.RddtReturnsTheMaskedTuple
  intro s hs
  simp only [← bcd2dec_eq, exec_device (i := .rddt) hs rfl rfl]
  refine ⟨rfl, fun hans => ?answered, fun d hd => ?failed⟩
  case answered =>
    rw [Plan.run_read_done (hans 0 (by decide)), Plan.run_stop, State.readBytes_datetime, State.passed_datetime,
      State.mid_found, State.mid_upcoming, Span.indices, State.getXs_setXs _ (by decide) rfl]
    rw [State.setXs_eq]
    rfl
  case failed => rw [Plan.run_read_failed hd]; rfl

/-! ### INIT -/

section Init

variable {s : State} {n : Nat} {m : Memory} {ts : List Transfer} {p q : Plan}

theorem Plan.run_ifStatus_bad (h : statChk s.cfg (s.getX 15) = true) :
    (Plan.ifStatus p q).run (s.mid n m ts) = p.run (s.mid n m ts) := if_pos h

theorem Plan.run_ifStatus_good (h : statChk s.cfg (s.getX 15) = false) :
    (Plan.ifStatus p q).run (s.mid n m ts) = q.run (s.mid n m ts) := if_neg (by simp [h])

theorem Plan.run_byShape_two (h : s.cfg.clearShape = .twoOneByte) :
    (Plan.byShape p q).run (s.mid n m ts) = p.run (s.mid n m ts) := by simp only [Plan.run, State.mid_cfg, h]

theorem Plan.run_byShape_one (h : s.cfg.clearShape = .oneTwoByte) :
    (Plan.byShape p q).run (s.mid n m ts) = q.run (s.mid n m ts) := by simp only [Plan.run, State.mid_cfg, h]

theorem exec_init_first (hs : s.inited = false) (addr : Option SlaveAddr) :
    exec (.init addr) s = .next ((Plan.initBody addr).run (s.mid 0 s.mem [])) := by
  rw [exec_eq_run rfl, State.mid_zero, planOf, Plan.run, if_neg (by simp [hs])]

/-- INIT's mirror after the defensive clear: both control bytes 0, whatever the read had loaded. -/
theorem State.clearControl (s : State) (b v w : Byte) :
    ((s.setX 15 b).setX 14 v).setX 15 w = (s.setX 14 v).setX 15 w := by
  rw [State.setX_comm s (by decide), State.setX_setX_same]

theorem State.setSterr_setX (s : State) (i : RegIndex) (b : Byte) (v : Bool) :
    (s.setX i b).setSterr v = (s.setSterr v).setX i b := rfl

/-- The status check finds nothing: the read is all. -/
theorem run_initBody_clean (addr : Option SlaveAddr) (h0 : (s.upcoming 0).answer = .done)
    (hstatus : statChk s.cfg (s.found.read 15) = false) :
    (Plan.initBody addr).run (s.mid 0 s.mem []) =
      (((s.beginInit addr).setX 15 (s.found.read 15)).setSterr false).after 1 (s.x.set 15 (s.found.read 15)) s.found
        [.rd (addr.getD s.cfg.slaveDefault) 0xF0 1 [s.found.read 15]] (.ok .empty) := by
  simp only [Plan.initBody, Plan.run_begin, Plan.run_read_done, State.beginInit_upcoming, h0, State.readBytes_control2,
    State.mid_found, State.passed_control2, Span.indices, State.setXs_cons, State.setXs_nil]
  rw [Plan.run_ifStatus_good (by simpa [State.found] using hstatus), Plan.run_sterr, Plan.run_result]
  rfl

/-- The status check finds an anomaly: the two control bytes are cleared in the mirror, and then on the device. -/
theorem run_initBody_anomaly (addr : Option SlaveAddr) (h0 : (s.upcoming 0).answer = .done)
    (hstatus : statChk s.cfg (s.found.read 15) = true) :
    (Plan.initBody addr).run (s.mid 0 s.mem []) =
      (Plan.byShape (.write .control1 <| .write .control2 <| .result .warnStatus)
        (.write .control <| .result .warnStatus)).run
        (((((s.beginInit addr).setSterr true).setX 14 0x00).setX 15 0x00).mid 1 s.found
          [.rd (addr.getD s.cfg.slaveDefault) 0xF0 1 [s.found.read 15]]) := by
  simp only [Plan.initBody, Plan.run_begin, Plan.run_read_done, State.beginInit_upcoming, h0, State.readBytes_control2,
    State.mid_found, State.passed_control2, Span.indices, State.setXs_cons, State.setXs_nil]
  rw [Plan.run_ifStatus_bad (by simpa [State.found] using hstatus), Plan.run_sterr, State.setSterr_setX, Plan.run_put,
    Plan.run_put, State.clearControl]
  rfl

end Init

/-- Settles O22. -/
theorem initChecksTheStatus : Obligations.InitChecksTheStatus := by
  unfold Obligations.InitChecksTheStatus
  intro s addr hshape
  refine ⟨rfl, fun hs => exec_init_of_inited hs addr, fun hs hans hst => ?clean, fun hs hans hst => ?anomaly,
    fun d hs hd => ?readFailed, fun d hs hans hst hd => ?firstFailed, fun d hs hans hst hd => ?secondFailed⟩
  case clean =>
    rw [exec_init_first hs, run_initBody_clean addr (hans 0 (by decide)) hst]
    rfl
  case anomaly =>
    have h1 := hans 1 (by decide)
    have h2 := hans 2 (by decide)
    rw [exec_init_first hs, run_initBody_anomaly addr (hans 0 (by decide)) hst, Plan.run_byShape_two (by exact hshape)]
    simp only [Plan.run_write_done, Plan.run_result, State.setX_upcoming, State.setSterr_upcoming,
      State.beginInit_upcoming, h1, h2, State.delivered_control1, State.delivered_control2, State.mid_found, Span.indices,
      State.getXs, List.map_cons, List.map_nil, State.getX_setX_same,
      State.getX_setX_ne _ (show (14 : RegIndex) ≠ 15 by decide)]
    rfl
  case readFailed =>
    rw [exec_init_first hs, Plan.initBody, Plan.run_begin, Plan.run_read_failed (by simpa using hd)]
    rfl
  case firstFailed =>
    rw [exec_init_first hs, run_initBody_anomaly addr (hans 0 (by decide)) hst, Plan.run_byShape_two (by exact hshape)]
    simp only [Plan.run_write_failed (d := d), State.setX_upcoming, State.setSterr_upcoming,
      State.beginInit_upcoming, hd, State.delivered_control1, State.mid_found, Span.indices,
      State.getXs, List.map_cons, List.map_nil, State.getX_setX_same,
      State.getX_setX_ne _ (show (14 : RegIndex) ≠ 15 by decide)]
    rfl
  case secondFailed =>
    have h1 := hans 1 (by decide)
    rw [exec_init_first hs, run_initBody_anomaly addr (hans 0 (by decide)) hst, Plan.run_byShape_two (by exact hshape)]
    simp only [Plan.run_write_done, Plan.run_write_failed (d := d), State.setX_upcoming, State.setSterr_upcoming,
      State.beginInit_upcoming, h1, hd, State.delivered_control1, State.delivered_control2, State.mid_found, Span.indices,
      State.getXs, List.map_cons, List.map_nil, State.getX_setX_same,
      State.getX_setX_ne _ (show (14 : RegIndex) ≠ 15 by decide)]
    rfl

end Sys2Proof.Machine
end

section
/-! The alarm commands on every path (44_alarms.md). They differ in the byte functions and in the bytes assigned between
the read and the rewriting of the Control block; the paths are the same. -/

namespace Sys2Proof.Machine

/-- The Control block delivered whole: the device may change Control2 between the two bytes (20_memory.md R39). -/
theorem State.delivered_control (s : State) (b1 b2 : Byte) :
    s.delivered .control [b1, b2] = ((s.found.write 14 b1).during (s.upcoming 0) 1).write 15 b2 := by
  simp only [State.delivered, Span.indices, gapsOf, Memory.during]
  rcases (s.upcoming 0).within with _ | ⟨g, gs⟩ <;> simp

/-- What a write on the way delivers. -/
theorem State.mid_delivered (s : State) (n : Nat) (m : Memory) (ts : List Transfer) (sp : Span) (bs : List Byte) :
    (s.mid n m ts).delivered sp bs =
      (m.drift (s.upcoming n).drift).writeAll sp.indices bs (gapsOf (s.upcoming n)) := by
  rw [State.delivered, State.mid_found, State.mid_upcoming, Nat.add_zero]

theorem State.mid_delivered_control (s : State) (n : Nat) (m : Memory) (ts : List Transfer) (b1 b2 : Byte) :
    (s.mid n m ts).delivered .control [b1, b2] =
      (((m.drift (s.upcoming n).drift).write 14 b1).during (s.upcoming n) 1).write 15 b2 := by
  rw [State.delivered_control, State.mid_found, State.mid_upcoming, Nat.add_zero]

/-- The mirror's Control block, read and then computed: what was read is gone. -/
theorem State.rewriteControl_mirror (s : State) (c1 c2 d1 d2 : Byte) :
    (((s.setX 14 c1).setX 15 c2).setX 14 d1).setX 15 d2 = (s.setX 14 d1).setX 15 d2 := by
  rw [State.clearControl, State.setX_setX_same]

/-! ### Reading the Control block -/

section Control

variable {s : State} {next : Plan}

/-- An answered read of the Control block. -/
theorem run_read_control (h0 : (s.upcoming 0).answer = .done) :
    (Plan.read .control next).run (s.mid 0 s.mem []) =
      next.run (((s.setX 14 (s.found.read 14)).setX 15 ((s.found.during (s.upcoming 0) 1).read 15)).mid 1
        (s.found.during (s.upcoming 0) 1)
        [.rd s.sa 0xE0 2 [s.found.read 14, (s.found.during (s.upcoming 0) 1).read 15]]) := by
  rw [Plan.run_read_done h0, State.readBytes_control, State.passed_control, State.mid_found, State.mid_upcoming]
  rfl

/-- A command that ends after the read of the Control block. -/
theorem stopsAfterControlRead {i : Instr} {o : CmdOutcome} (hs : s.inited = true) (hi : i.inDomain = true)
    (hplan : planOf i = .device (.read .control (.result o))) : StopsAfterControlRead i s o := by
  unfold StopsAfterControlRead
  rw [exec_device hs hi hplan]
  refine ⟨fun hans => ?answered, fun d hd => ?failed⟩
  case answered => rw [run_read_control (hans 0 (by decide))]; rfl
  case failed => rw [Plan.run_read_failed hd]; rfl

/-! ### Rewriting the Control block -/

variable {puts : Plan → Plan} {f1 f2 : Cfg → Byte → Byte} {is : List RegIndex} {bs : List Byte}

/-- `puts` loads `bs` into the mirror bytes `is`, which are none of the Control block. -/
structure PutsLoad (s : State) (puts : Plan → Plan) (is : List RegIndex) (bs : List Byte) : Prop where
  run : ∀ (p : Plan) (t : State) (n : Nat) (m : Memory) (ts : List Transfer), t.getX 10 = s.getX 10 →
    (puts p).run (t.mid n m ts) = p.run ((t.setXs is bs).mid n m ts)
  control1 : 14 ∉ is
  control2 : 15 ∉ is

theorem putsLoad_id (s : State) : PutsLoad s id [] [] :=
  ⟨fun p t n m ts _ => by rw [State.setXs_nil]; rfl, by simp, by simp⟩

/-- The mirror with the Control block and the span loaded. -/
def State.rewritten (s : State) (d1 d2 : Byte) (is : List RegIndex) (bs : List Byte) : State :=
  (s.setXs [14, 15] [d1, d2]).setXs is bs

theorem State.rewritten_upcoming (d1 d2 : Byte) (n : Nat) : (s.rewritten d1 d2 is bs).upcoming n = s.upcoming n := by
  simp [State.rewritten]

theorem State.rewritten_sa (d1 d2 : Byte) : (s.rewritten d1 d2 is bs).sa = s.sa := by simp [State.rewritten]

theorem State.rewritten_getXs (d1 d2 : Byte) (h1 : 14 ∉ is) (h2 : 15 ∉ is) :
    (s.rewritten d1 d2 is bs).getXs [14, 15] = [d1, d2] := by
  have hcontrol : (s.rewritten d1 d2 is bs).getXs [14, 15] = (s.setXs [14, 15] [d1, d2]).getXs [14, 15] := by
    simp only [State.getXs, List.map_cons, List.map_nil, State.rewritten, State.getX_setXs_of_not_mem _ h1,
      State.getX_setXs_of_not_mem _ h2]
  rw [hcontrol, State.getXs_setXs s (by decide) rfl]

/-- A load is no part of what a path ends with but in the mirror. -/
theorem State.rewritten_after (d1 d2 : Byte) (n : Nat) (x : Vector Byte 16) (m : Memory) (ts : List Transfer)
    (o : CmdOutcome) : (s.rewritten d1 d2 is bs).after n x m ts o = s.after n x m ts o := by
  rw [State.rewritten, State.after_setXs, State.after_setXs]

/-- The read, the assignments and the two computed bytes: the plan stands before the write of the Control block. -/
theorem run_rewriteControl (h0 : (s.upcoming 0).answer = .done) (hputs : PutsLoad s puts is bs) :
    (Plan.rewriteControl puts f1 f2 next).run (s.mid 0 s.mem []) =
      (Plan.write .control next).run
        ((s.rewritten (f1 s.cfg (s.found.read 14)) (f2 s.cfg ((s.found.during (s.upcoming 0) 1).read 15)) is bs).mid 1
          (s.found.during (s.upcoming 0) 1)
          [.rd s.sa 0xE0 2 [s.found.read 14, (s.found.during (s.upcoming 0) 1).read 15]]) := by
  have h10 : ∀ v w, ((s.setX 14 v).setX 15 w).getX 10 = s.getX 10 := fun v w => by
    rw [State.getX_setX_ne _ (by decide), State.getX_setX_ne _ (by decide)]
  rw [Plan.rewriteControl, run_read_control h0, hputs.run _ _ _ _ _ (h10 _ _), Plan.run_modify, Plan.run_modify,
    State.getX_setXs_of_not_mem _ hputs.control1, State.getX_setX_ne _ (show (14 : RegIndex) ≠ 15 by decide),
    State.getX_setX_same, State.getX_setX_ne _ (show (15 : RegIndex) ≠ 14 by decide),
    State.getX_setXs_of_not_mem _ hputs.control2, State.getX_setX_same, State.setXs_setX _ hputs.control1,
    State.setXs_setX _ hputs.control2, State.rewriteControl_mirror]
  simp only [State.setX_cfg, State.setXs_cfg]
  rfl

section Write

variable {n : Nat} {m : Memory} {ts : List Transfer} {d1 d2 : Byte}

/-- The Control block written. -/
theorem run_write_control_done (h1 : (s.upcoming n).answer = .done) (hc1 : 14 ∉ is) (hc2 : 15 ∉ is) :
    (Plan.write .control next).run ((s.rewritten d1 d2 is bs).mid n m ts) =
      next.run ((s.rewritten d1 d2 is bs).mid (n + 1)
        ((((m.drift (s.upcoming n).drift).write 14 d1).during (s.upcoming n) 1).write 15 d2)
        (ts ++ [.wr s.sa 0xE0 2 [d1, d2]])) := by
  rw [Plan.run_write_done (by rw [State.rewritten_upcoming]; exact h1), Span.indices, State.rewritten_getXs _ _ hc1 hc2,
    State.mid_delivered_control, State.rewritten_upcoming, State.rewritten_sa]
  rfl

theorem run_write_control_failed {d : Nat} (h1 : (s.upcoming n).answer = .failed d) (hc1 : 14 ∉ is) (hc2 : 15 ∉ is) :
    (Plan.write .control next).run ((s.rewritten d1 d2 is bs).mid n m ts) =
      s.after (n + 1) (s.rewritten d1 d2 is bs).x
        ((m.drift (s.upcoming n).drift).writeAll [14, 15] ([d1, d2].take d) (gapsOf (s.upcoming n)))
        (ts ++ [.wr s.sa 0xE0 2 [d1, d2]]) .errBus := by
  rw [Plan.run_write_failed (by rw [State.rewritten_upcoming]; exact h1), Span.indices,
    State.rewritten_getXs _ _ hc1 hc2, State.rewritten_after, State.rewritten_sa, State.mid_delivered,
    State.rewritten_upcoming]
  rfl

/-- The span written that the plan has loaded. -/
theorem run_write_span_done {sp : Span} (h2 : (s.upcoming n).answer = .done) (hlen : bs.length = sp.indices.length)
    (hnodup : sp.indices.Nodup) :
    (Plan.write sp next).run ((s.rewritten d1 d2 sp.indices bs).mid n m ts) =
      next.run ((s.rewritten d1 d2 sp.indices bs).mid (n + 1)
        ((m.drift (s.upcoming n).drift).writeAll sp.indices bs (gapsOf (s.upcoming n)))
        (ts ++ [.wr s.sa sp.wire sp.count bs])) := by
  have hbytes : (s.rewritten d1 d2 sp.indices bs).getXs sp.indices = bs := State.getXs_setXs _ hnodup hlen
  rw [Plan.run_write_done (by rw [State.rewritten_upcoming]; exact h2), hbytes, State.mid_delivered,
    State.rewritten_upcoming, State.rewritten_sa]

theorem run_write_span_failed {sp : Span} {d : Nat} (h2 : (s.upcoming n).answer = .failed d)
    (hlen : bs.length = sp.indices.length) (hnodup : sp.indices.Nodup) :
    (Plan.write sp next).run ((s.rewritten d1 d2 sp.indices bs).mid n m ts) =
      s.after (n + 1) (s.rewritten d1 d2 sp.indices bs).x
        ((m.drift (s.upcoming n).drift).writeAll sp.indices (bs.take d) (gapsOf (s.upcoming n)))
        (ts ++ [.wr s.sa sp.wire sp.count bs]) .errBus := by
  have hbytes : (s.rewritten d1 d2 sp.indices bs).getXs sp.indices = bs := State.getXs_setXs _ hnodup hlen
  rw [Plan.run_write_failed (by rw [State.rewritten_upcoming]; exact h2), hbytes, State.rewritten_after,
    State.mid_delivered, State.rewritten_upcoming, State.rewritten_sa]

theorem run_result_rewritten (o : CmdOutcome) :
    (Plan.result o).run ((s.rewritten d1 d2 is bs).mid n m ts) =
      s.after n (s.rewritten d1 d2 is bs).x m ts o := by
  rw [Plan.run_result, State.rewritten_after]

end Write

/-- A command that rewrites the Control block and ends. -/
theorem rewritesControl {i : Instr} (hs : s.inited = true) (hi : i.inDomain = true)
    (hplan : planOf i = .device (.rewriteControl id f1 f2 (.result (.ok .empty)))) :
    RewritesControl i s (f1 s.cfg) (f2 s.cfg) := by
  unfold RewritesControl
  rw [exec_device hs hi hplan]
  refine ⟨fun hans => ?answered, fun d hd => ?readFailed, fun d h0 hd => ?writeFailed⟩
  case answered =>
    rw [run_rewriteControl (hans 0 (by decide)) (putsLoad_id s), run_write_control_done (hans 1 (by decide)) (by simp)
      (by simp), run_result_rewritten]
    rfl
  case readFailed => rw [Plan.rewriteControl, Plan.run_read_failed hd]; rfl
  case writeFailed =>
    rw [run_rewriteControl h0 (putsLoad_id s), run_write_control_failed hd (by simp) (by simp)]
    rfl

/-- A command that rewrites the Control block and then writes an alarm's registers. -/
theorem rewritesControlThenAlarm {i : Instr} {sp : Span} (hs : s.inited = true) (hi : i.inDomain = true)
    (hplan : planOf i = .device (.rewriteControl puts f1 f2 (.write sp (.result (.ok .empty)))))
    (hputs : PutsLoad s puts sp.indices bs) (hlen : bs.length = sp.indices.length) (hnodup : sp.indices.Nodup) :
    RewritesControlThenAlarm i s (f1 s.cfg) (f2 s.cfg) sp bs := by
  unfold RewritesControlThenAlarm
  rw [exec_device hs hi hplan]
  have hrewrite := fun h0 => run_rewriteControl (f1 := f1) (f2 := f2) (next := .write sp (.result (.ok .empty))) h0 hputs
  refine ⟨fun hans => ?answered, fun d hd => ?readFailed, fun d h0 hd => ?controlFailed, fun d hans hd => ?alarmFailed⟩
  case answered =>
    rw [hrewrite (hans 0 (by decide)), run_write_control_done (hans 1 (by decide)) hputs.control1 hputs.control2,
      run_write_span_done (hans 2 (by decide)) hlen hnodup, run_result_rewritten]
    rfl
  case readFailed => rw [Plan.rewriteControl, Plan.run_read_failed hd]; rfl
  case controlFailed =>
    rw [hrewrite h0, run_write_control_failed hd hputs.control1 hputs.control2]
    rfl
  case alarmFailed =>
    rw [hrewrite (hans 0 (by decide)), run_write_control_done (hans 1 (by decide)) hputs.control1 hputs.control2,
      run_write_span_failed hd hlen hnodup]
    rfl

end Control

/-! ### The bytes assigned between read and write -/

theorem putsLoad_daily (s : State) (bm bh : Byte) :
    PutsLoad s (Plan.putTime 11 12 bm bh) Span.dailyAlarm.indices [bm, bh] :=
  ⟨fun _ _ _ _ _ _ => rfl, by decide, by decide⟩

/-- An alarm's weekday byte that is not assigned is the mirror's. -/
theorem setXs_weekly_kept {s t : State} (h : t.getX 10 = s.getX 10) (bm bh : Byte) :
    t.setXs Span.weeklyAlarm.indices [bm, bh, s.getX 10] = (t.setX 8 bm).setX 9 bh := by
  have hkept : ((t.setX 8 bm).setX 9 bh).getX 10 = s.getX 10 := by
    rw [State.getX_setX_ne _ (by decide), State.getX_setX_ne _ (by decide), h]
  calc t.setXs Span.weeklyAlarm.indices [bm, bh, s.getX 10] = ((t.setX 8 bm).setX 9 bh).setX 10 (s.getX 10) := rfl
    _ = (t.setX 8 bm).setX 9 bh := by rw [← hkept, State.setX_getX]

theorem putsLoad_weekly (s : State) (bm bh : Byte) :
    PutsLoad s (Plan.putTime 8 9 bm bh) Span.weeklyAlarm.indices [bm, bh, s.getX 10] :=
  ⟨fun _ _ _ _ _ h => by rw [setXs_weekly_kept h]; rfl, by decide, by decide⟩

theorem putsLoad_weekly_mask (s : State) (bm bh : Byte) (wdmask : BitVec 7) :
    PutsLoad s (fun p => .putTime 8 9 bm bh (.putMask wdmask p)) Span.weeklyAlarm.indices
      [bm, bh, if wdmask = 0 then s.getX 10 else wdmask.setWidth 8] := by
  by_cases hm : wdmask = 0
  · simpa only [Plan.putMask, if_pos hm] using putsLoad_weekly s bm bh
  · simp only [Plan.putMask, if_neg hm]
    exact ⟨fun _ _ _ _ _ _ => rfl, by decide, by decide⟩

/-! ### The six commands -/

theorem planOf_dalmset {hours minutes : Option Int} {bm bh : Byte} (h : almTime hours minutes = .ok (bm, bh)) :
    planOf (.dalmset hours minutes) = .device (.rewriteControl (.putTime 11 12 bm bh) setDale clearDafg <|
      .write .dailyAlarm <| .result (.ok .empty)) := by simp only [planOf, h]

theorem planOf_dalmset_error {hours minutes : Option Int} {f : Field} (h : almTime hours minutes = .error f) :
    planOf (.dalmset hours minutes) = .device (.read .control <| .result (.errArg f)) := by simp only [planOf, h]

theorem planOf_dalmclr : planOf .dalmclr = .device (.rewriteControl (.putTime 11 12 0x00 0x00) clearDale clearDafg <|
    .write .dailyAlarm <| .result (.ok .empty)) := rfl

theorem planOf_walmclr : planOf .walmclr = .device (.rewriteControl (.putTime 8 9 0x00 0x00) clearWale clearWafg <|
    .write .weeklyAlarm <| .result (.ok .empty)) := rfl

theorem planOf_walmset {hours minutes : Option Int} {bm bh : Byte} (h : almTime hours minutes = .ok (bm, bh))
    (wdmask : BitVec 7) : planOf (.walmset hours minutes wdmask) =
      .device (.rewriteControl (fun p => .putTime 8 9 bm bh (.putMask wdmask p)) setWale clearWafg <|
        .write .weeklyAlarm <| .result (.ok .empty)) := by simp only [planOf, h]

theorem planOf_walmset_error {hours minutes : Option Int} {f : Field} (h : almTime hours minutes = .error f)
    (wdmask : BitVec 7) : planOf (.walmset hours minutes wdmask) =
      .device (.read .control <| .result (.errArg f)) := by simp only [planOf, h]

/-- Settles O36. -/
theorem dalmsetArmsTheDailyAlarm : Obligations.DalmsetArmsTheDailyAlarm := by
  unfold Obligations.DalmsetArmsTheDailyAlarm
  refine fun s hours minutes hs => ⟨rfl, fun bm bh h => ?_, fun f h => ?_⟩
  · have hpaths := rewritesControlThenAlarm hs rfl (planOf_dalmset h) (putsLoad_daily s bm bh) rfl (by decide)
    exact hpaths
  · exact stopsAfterControlRead hs rfl (planOf_dalmset_error h)

/-- Settles O37. -/
theorem dalmclrDisarmsTheDailyAlarm : Obligations.DalmclrDisarmsTheDailyAlarm := by
  unfold Obligations.DalmclrDisarmsTheDailyAlarm
  intro s hs
  have hpaths := rewritesControlThenAlarm hs rfl planOf_dalmclr (putsLoad_daily s 0x00 0x00) rfl (by decide)
  exact ⟨rfl, hpaths⟩

/-- Settles O38. -/
theorem dalmrstRearmsTheDailyAlarm : Obligations.DalmrstRearmsTheDailyAlarm := by
  unfold Obligations.DalmrstRearmsTheDailyAlarm
  exact fun s hs => ⟨rfl, rewritesControl (i := .dalmrst) hs rfl rfl⟩

/-- Settles O39. -/
theorem walmsetArmsTheWeeklyAlarm : Obligations.WalmsetArmsTheWeeklyAlarm := by
  unfold Obligations.WalmsetArmsTheWeeklyAlarm
  refine fun s hours minutes wdmask hs => ⟨rfl, fun bm bh h => ?_, fun f h => ?_⟩
  · have hpaths := rewritesControlThenAlarm hs rfl (planOf_walmset h wdmask) (putsLoad_weekly_mask s bm bh wdmask) rfl
      (by decide)
    exact hpaths
  · exact stopsAfterControlRead hs rfl (planOf_walmset_error h wdmask)

/-- Settles O40. -/
theorem walmclrDisarmsTheWeeklyAlarm : Obligations.WalmclrDisarmsTheWeeklyAlarm := by
  unfold Obligations.WalmclrDisarmsTheWeeklyAlarm
  intro s hs
  have hpaths := rewritesControlThenAlarm hs rfl planOf_walmclr (putsLoad_weekly s 0x00 0x00) rfl (by decide)
  exact ⟨rfl, hpaths⟩

/-- Settles O41. -/
theorem walmrstRearmsTheWeeklyAlarm : Obligations.WalmrstRearmsTheWeeklyAlarm := by
  unfold Obligations.WalmrstRearmsTheWeeklyAlarm
  exact fun s hs => ⟨rfl, rewritesControl (i := .walmrst) hs rfl rfl⟩

end Sys2Proof.Machine
end

section
/-! WRDT on every path (41_datetime.md R103, R104). -/

namespace Sys2Proof.Machine

/-- A failing field, past the gate. -/
theorem planOf_wrdt_error {se mi h d mo y wd : Option Int} {f : Field}
    (hf : firstFailing (datetimeChecks se mi h d mo y wd) = some f) :
    planOf (.wrdt se mi h d mo y wd) = .device (.result (.errArg f)) := by
  have hvalid : dtValid se mi h d mo y wd = .error f :=
    (dtValid_eq_checked se mi h d mo y wd).trans (checked_eq_error.mpr hf)
  simp only [planOf, hvalid]

/-- The value WRDT validates, its weekday left open. -/
def dateTimeOf (se mi h d mo y : Int) : DateTime :=
  { year := y, month := mo, date := d, weekday := 0, hours := h, minutes := mi, seconds := se }

theorem planOf_wrdt {se mi h d mo y : Int} {wd : Option Int}
    (hnone : firstFailing (datetimeChecks (some se) (some mi) (some h) (some d) (some mo) (some y) wd) = none) :
    planOf (.wrdt (some se) (some mi) (some h) (some d) (some mo) (some y) wd) =
      .device (.putDatetime (dateTimeOf se mi h d mo y) wd <| .write .datetime <| .read .control2 <|
        .modify 15 vdetClr <| .write .control2 <| .result (.ok .empty)) := by
  have hvalid : dtValid (some se) (some mi) (some h) (some d) (some mo) (some y) wd =
      .ok (dateTimeOf se mi h d mo y, wd) := (dtValid_eq_checked _ _ _ _ _ _ _).trans (checked_eq_ok hnone)
  simp only [planOf, hvalid]

/-- The seven bytes of WRDT, the weekday supplied or computed. -/
def wrdtBytes (c : Cfg) (se mi h d mo y : Int) (wd : Option Int) : List Byte :=
  [dec2bcd se, dec2bcd mi, dec2bcd h ||| 0x80, dec2bcd (wd.getD (wdayF d mo (c.century + y))), dec2bcd d, dec2bcd mo,
    dec2bcd y]

theorem wrdtWeekday_eq (c : Cfg) (se mi h d mo y : Int) (wd : Option Int) :
    wrdtWeekday c (dateTimeOf se mi h d mo y) wd = wd.getD (wdayF d mo (c.century + y)) := by
  cases wd with
  | none => rfl
  | some w => rfl

section Paths

variable {s : State} {n : Nat} {m : Memory} {ts : List Transfer} {next : Plan}

theorem run_putDatetime (se mi h d mo y : Int) (wd : Option Int) :
    (Plan.putDatetime (dateTimeOf se mi h d mo y) wd next).run (s.mid n m ts) =
      next.run ((s.setXs Span.datetime.indices (wrdtBytes s.cfg se mi h d mo y wd)).mid n m ts) := by
  simp only [Plan.putDatetime, Plan.run_put, State.setX_cfg, wrdtWeekday_eq, wrdtBytes, Span.indices, State.setXs_cons,
    State.setXs_nil]
  rfl

end Paths

theorem setXs_control2 (s : State) (b : Byte) : s.setXs Span.control2.indices [b] = s.setX 15 b := rfl

theorem State.getXs_control2 (s : State) : s.getXs Span.control2.indices = [s.getX 15] := rfl

/-- Settles O27. -/
theorem wrdtWritesTheTimeThenClearsVdet : Obligations.WrdtWritesTheTimeThenClearsVdet := by
  unfold Obligations.WrdtWritesTheTimeThenClearsVdet
  refine ⟨fun s se mi h d mo y wd f hs hf => ?failing, fun s se mi h d mo y wd hs hnone => ?valid⟩
  case failing =>
    rw [exec_device hs rfl (planOf_wrdt_error hf), State.mid_zero]
    rfl
  case valid =>
    have hlen : (wrdtBytes s.cfg se mi h d mo y wd).length = Span.datetime.indices.length := rfl
    have hbytes := State.getXs_setXs s (is := Span.datetime.indices) (by decide) hlen
    simp only [exec_device hs rfl (planOf_wrdt hnone), run_putDatetime]
    refine ⟨rfl, fun hans => ?answered, fun k hk => ?firstFailed, fun k hans hk => ?readFailed,
      fun k hans hk => ?lastFailed⟩
    case answered =>
      have h0 := hans 0 (by decide)
      have h1 := hans 1 (by decide)
      have h2 := hans 2 (by decide)
      simp only [Plan.run_write_done, Plan.run_read_done, Plan.run_modify, Plan.run_result, State.setXs_upcoming,
        State.setX_upcoming, h0, h1, h2, hbytes, State.mid_delivered, State.readBytes_control2, State.passed_control2,
        State.delivered_control2, State.mid_found, setXs_control2, State.setX_setX_same, State.getXs_control2,
        State.getX_setX_same]
      simp only [State.after_setXs, State.after_setX, State.setXs_sa, State.setX_sa, wrdtBytes, Span.indices]
      rfl
    case firstFailed =>
      simp only [Plan.run_write_failed (d := k), State.setXs_upcoming, hk, hbytes, State.mid_delivered]
      simp only [State.after_setXs, State.setXs_sa, wrdtBytes, Span.indices]
      rfl
    case readFailed =>
      have h0 := hans 0 (by decide)
      simp only [Plan.run_write_done, Plan.run_read_failed (d := k), State.setXs_upcoming, h0, hk, hbytes,
        State.mid_delivered]
      simp only [State.after_setXs, State.setXs_sa, wrdtBytes, Span.indices]
      rfl
    case lastFailed =>
      have h0 := hans 0 (by decide)
      have h1 := hans 1 (by decide)
      simp only [Plan.run_write_done, Plan.run_read_done, Plan.run_modify, Plan.run_write_failed (d := k),
        State.setXs_upcoming, State.setX_upcoming, h0, h1, hk, hbytes, State.mid_delivered, State.readBytes_control2,
        State.passed_control2, State.delivered_control2, State.mid_found, setXs_control2, State.setX_setX_same,
        State.getXs_control2, State.getX_setX_same]
      simp only [State.after_setXs, State.after_setX, State.setXs_sa, State.setX_sa, wrdtBytes, Span.indices]
      rfl

end Sys2Proof.Machine
end

section
/-! The static test-bench device (20_memory.md R47): every transfer is answered and nothing changes by itself, so what is
written is read back. -/

namespace Sys2Proof.Machine

/-! ### The static device -/

section Static

variable {s : State} {n : Nat}

/-- The static device answers. -/
theorem static_answer : EnvEvent.static.answer = .done := rfl

theorem answered_of_static (h : staticFor s n) : answered s n := fun k hk => by rw [h k hk]; rfl

theorem Memory.during_static (m : Memory) (k : Nat) : m.during .static k = m := by
  simp [Memory.during, EnvEvent.static]

/-- A static device changes nothing between the bytes of a write. -/
theorem Memory.writeAll_static (m : Memory) (as : List RegIndex) (bs : List Byte) :
    m.writeAll as bs (gapsOf .static) = m.writeAll as bs [] := by
  cases as with
  | nil => simp
  | cons a as =>
    cases bs with
    | nil => simp
    | cons b bs => rfl

theorem Memory.drift_static (m : Memory) : m.drift EnvEvent.static.drift = m := rfl

theorem State.found_static (h : s.upcoming 0 = .static) : s.found = s.mem := by
  rw [State.found, h, Memory.drift_static]

/-- A read returns what the registers hold. -/
theorem State.readBytes_static (h : s.upcoming 0 = .static) (sp : Span) :
    s.readBytes sp = sp.indices.map s.mem.read := by
  have hgaps : ∀ as : List RegIndex, s.mem.readAll as (gapsOf .static) = s.mem.readAll as [] := fun as => by
    cases as with
    | nil => rfl
    | cons a as => rfl
  rw [State.readBytes, State.found_static h, h, hgaps, Memory.readAll_no_gaps]

/-- The registers of a span hold what was written to it. -/
theorem Memory.map_read_writeAll {m : Memory} (hwf : m.wf = true) {as : List RegIndex} {bs : List Byte}
    (hnodup : as.Nodup) (hlen : bs.length = as.length) : as.map (m.writeAll as bs []).read = bs := by
  induction as generalizing m bs with
  | nil => simp [List.length_eq_zero_iff.mp hlen]
  | cons a as ih =>
    cases bs with
    | nil => simp at hlen
    | cons b bs =>
      obtain ⟨ha, hnodup⟩ := List.nodup_cons.mp hnodup
      have hrest := ih (Memory.wf_write hwf a b) (bs := bs) hnodup (by simpa using hlen)
      have hfirst : ((m.write a b).writeAll as bs []).read a = b := by
        rw [Memory.read_writeAll_of_not_mem _ ha bs (by simp), Memory.read_write_same hwf]
      rw [List.map_cons]
      exact congrArg₂ List.cons hfirst hrest

end Static

/-! ### The state a path ends in -/

section After

variable (s : State) (n : Nat) (x : Vector Byte 16) (m : Memory) (ts : List Transfer) (o : CmdOutcome)

theorem State.after_upcoming (k : Nat) : (s.after n x m ts o).upcoming k = s.upcoming (n + k) := s.upcoming_consume n k

theorem State.after_static {k : Nat} (h : staticFor s (n + k)) : staticFor (s.after n x m ts o) k := fun j hj => by
  rw [State.after_upcoming]
  exact h (n + j) (by omega)

end After

/-! ### The defensive clear -/

/-- What INIT leaves on the static device, whichever the shape of the defensive clear. -/
theorem run_initBody_static {s : State} (addr : Option SlaveAddr) (h : staticFor s 3) :
    let t := (Plan.initBody addr).run (s.mid 0 s.mem [])
    (t.mem, t.x, t.sterr, t.outcomes) =
      if statChk s.cfg (s.mem.read 15) then
        ((s.mem.write 14 0x00).write 15 0x00, (s.x.set 14 0x00).set 15 0x00, true, s.outcomes ++ [.warnStatus])
      else (s.mem, s.x.set 15 (s.mem.read 15), false, s.outcomes ++ [.ok .empty]) := by
  have hanswered := answered_of_static h
  have h0 := h 0 (by decide)
  have h1 := h 1 (by decide)
  have h2 := h 2 (by decide)
  have hfound := State.found_static h0
  cases hst : statChk s.cfg (s.mem.read 15) with
  | false =>
    rw [run_initBody_clean addr (hanswered 0 (by decide)) (by rw [hfound]; exact hst), hfound]
    rfl
  | true =>
    rw [run_initBody_anomaly addr (hanswered 0 (by decide)) (by rw [hfound]; exact hst), hfound]
    cases hshape : s.cfg.clearShape with
    | twoOneByte =>
      rw [Plan.run_byShape_two (by exact hshape)]
      simp only [Plan.run_write_done, Plan.run_result, State.setX_upcoming, State.setSterr_upcoming,
        State.beginInit_upcoming, h1, h2, static_answer, State.mid_delivered,
        Memory.drift_static, Memory.writeAll_static, Span.indices, State.getXs, List.map_cons, List.map_nil,
        State.getX_setX_same, State.getX_setX_ne _ (show (14 : RegIndex) ≠ 15 by decide)]
      rfl
    | oneTwoByte =>
      rw [Plan.run_byShape_one (by exact hshape)]
      simp only [Plan.run_write_done, Plan.run_result, State.setX_upcoming, State.setSterr_upcoming,
        State.beginInit_upcoming, h1, static_answer, State.mid_delivered,
        Memory.drift_static, Memory.writeAll_static, Span.indices, State.getXs, List.map_cons, List.map_nil,
        State.getX_setX_same, State.getX_setX_ne _ (show (14 : RegIndex) ≠ 15 by decide)]
      rfl

/-- Settles O23: what INIT leaves on the static device does not mention the shape. -/
theorem clearShapesAgreeOnAStaticDevice : Obligations.ClearShapesAgreeOnAStaticDevice := by
  unfold Obligations.ClearShapesAgreeOnAStaticDevice
  intro s addr hs hstatic
  have htwo := run_initBody_static (s := { s with cfg := { s.cfg with clearShape := .twoOneByte } }) addr hstatic
  have hone := run_initBody_static (s := { s with cfg := { s.cfg with clearShape := .oneTwoByte } }) addr hstatic
  have hsame := htwo.trans hone.symm
  simp only [Prod.mk.injEq] at hsame
  exact ⟨_, _, exec_init_first (s := { s with cfg := { s.cfg with clearShape := .twoOneByte } }) hs addr,
    exec_init_first (s := { s with cfg := { s.cfg with clearShape := .oneTwoByte } }) hs addr, hsame⟩

/-! ### The offset -/

theorem exec_ofsget_answered {s : State} (hs : s.inited = true) (h0 : (s.upcoming 0).answer = .done) :
    ∃ u, exec .ofsget s = .next u ∧ u.outcomes = s.outcomes ++ [.ok (.int (ofsDec (s.found.read 7)))] := by
  refine ⟨_, exec_device (i := .ofsget) hs rfl rfl, ?_⟩
  rw [Plan.run_read_done h0, Plan.run_stop, State.readBytes_offset, State.mid_found, Span.indices,
    State.getXs_setXs _ (by decide) rfl]
  rfl

theorem exec_ofsset_static {s : State} (hs : s.inited = true) (hstatic : s.upcoming 0 = .static) {v : Int}
    (hlo : -62 ≤ v) (hhi : v ≤ 63) : ∃ x ts, exec (.ofsset v) s =
      .next (s.after 1 x (s.mem.write 7 (ofsEnc v)) ts (.ok .empty)) := by
  obtain ⟨-, hanswered, -, -⟩ := ofssetWritesOrRejects s v hs
  have hdone : answered s 1 := answered_of_static fun k hk => by rwa [Nat.lt_one_iff.mp hk]
  have hset := hanswered hlo hhi hdone
  rw [hstatic, Memory.drift_static, ← ofsEnc_eq_emod] at hset
  exact ⟨_, _, hset⟩

/-- Settles O31. -/
theorem offsetRoundTripsOnAStaticDevice : Obligations.OffsetRoundTripsOnAStaticDevice := by
  unfold Obligations.OffsetRoundTripsOnAStaticDevice
  intro s v hs hwf hstatic
  have hanswered := answered_of_static hstatic
  have h0 := hstatic 0 (by decide)
  have h1 := hstatic 1 (by decide)
  by_cases hrange : -62 ≤ v ∧ v ≤ 63
  · obtain ⟨hlo, hhi⟩ := hrange
    obtain ⟨x, ts, hset⟩ := exec_ofsset_static hs h0 hlo hhi
    have hnext := State.after_upcoming s 1 x (s.mem.write 7 (ofsEnc v)) ts (.ok .empty) 0
    obtain ⟨u, hget, hu⟩ := exec_ofsget_answered (s := s.after 1 x (s.mem.write 7 (ofsEnc v)) ts (.ok .empty)) hs
      (by rw [hnext]; exact hanswered 1 (by decide))
    refine ⟨_, u, hset, hget, fun _ _ => ?_, fun hout => by omega⟩
    rw [hu, State.found_static (hnext.trans h1)]
    have hread : (s.mem.write 7 (ofsEnc v)).read 7 = ofsEnc v := Memory.read_write_same hwf 7 _
    have hvalue : ofsDec ((s.after 1 x (s.mem.write 7 (ofsEnc v)) ts (.ok .empty)).mem.read 7) = v :=
      (congrArg ofsDec hread).trans (ofsDec_ofsEnc hlo hhi)
    rw [hvalue]
    simp [State.after]
  · have hout : v < -62 ∨ 63 < v := by omega
    obtain ⟨u, hget, hu⟩ := exec_ofsget_answered (s := s.finish .rejValue) hs (hanswered 0 (by decide))
    obtain ⟨u', hget', hu'⟩ := exec_ofsget_answered hs (hanswered 0 (by decide))
    refine ⟨_, u, exec_ofsset_rejected hs hout, hget, fun hlo hhi => by omega, fun _ => ⟨rfl, rfl, u', hget', ?_⟩⟩
    rw [hu, hu', List.getLast?_concat, List.getLast?_concat]
    rfl

end Sys2Proof.Machine
end

section
/-! The alarms on the static device (44_alarms.md R159, R160): what a second disable writes is what is there, and the
weekday register holds the mask or the mirror's `x[10]`. -/

namespace Sys2Proof.Machine

/-- Writing to registers what they hold changes nothing. -/
theorem Memory.writeAll_map_read {m : Memory} (hwf : m.wf = true) (as : List RegIndex) :
    m.writeAll as (as.map m.read) [] = m := by
  induction as with
  | nil => simp
  | cons a as ih => simpa [Memory.write_read_self hwf] using ih

/-! ### The Control block, then an alarm -/

/-- The registers after an alarm command on the static device: the Control block rewritten, the alarm written. -/
def Memory.alarmWritten (m : Memory) (f1 f2 : Byte → Byte) (sp : Span) (bytes : List Byte) : Memory :=
  ((m.write 14 (f1 (m.read 14))).write 15 (f2 (m.read 15))).writeAll sp.indices bytes []

/-- The transfers of an alarm command on the static device. -/
def State.alarmTransfers (s : State) (f1 f2 : Byte → Byte) (sp : Span) (bytes : List Byte) : List Transfer :=
  [.rd s.sa 0xE0 2 [s.mem.read 14, s.mem.read 15], .wr s.sa 0xE0 2 [f1 (s.mem.read 14), f2 (s.mem.read 15)],
    .wr s.sa sp.wire sp.count bytes]

/-- The state an alarm command ends in on the static device. -/
def State.afterAlarm (s : State) (f1 f2 : Byte → Byte) (sp : Span) (bytes : List Byte) : State :=
  s.after 3 ((s.setXs [14, 15] [f1 (s.mem.read 14), f2 (s.mem.read 15)]).setXs sp.indices bytes).x
    (s.mem.alarmWritten f1 f2 sp bytes) (s.alarmTransfers f1 f2 sp bytes) (.ok .empty)

section Alarm

variable {s : State} {i : Instr} {m : Memory} {f1 f2 : Byte → Byte} {sp : Span} {bytes : List Byte}

theorem exec_alarm_static (hpaths : RewritesControlThenAlarm i s f1 f2 sp bytes) (hstatic : staticFor s 3) :
    exec i s = .next (s.afterAlarm f1 f2 sp bytes) := by
  obtain ⟨hanswered, -, -, -⟩ := hpaths
  have h := hanswered (answered_of_static hstatic)
  simp only [hstatic 0 (by decide), hstatic 1 (by decide), hstatic 2 (by decide), Memory.drift_static,
    Memory.during_static, Memory.writeAll_static] at h
  exact h

theorem Memory.wf_alarmWritten (hwf : m.wf = true) : (m.alarmWritten f1 f2 sp bytes).wf = true :=
  Memory.wf_writeAll (Memory.wf_write (Memory.wf_write hwf _ _) _ _) _ _ _

theorem Memory.alarmWritten_span (hwf : m.wf = true) (hnodup : sp.indices.Nodup)
    (hlen : bytes.length = sp.indices.length) : sp.indices.map (m.alarmWritten f1 f2 sp bytes).read = bytes :=
  Memory.map_read_writeAll (Memory.wf_write (Memory.wf_write hwf _ _) _ _) hnodup hlen

theorem Memory.alarmWritten_control1 (hwf : m.wf = true) (h14 : 14 ∉ sp.indices) :
    (m.alarmWritten f1 f2 sp bytes).read 14 = f1 (m.read 14) := by
  rw [Memory.alarmWritten, Memory.read_writeAll_of_not_mem _ h14 bytes (by simp), Memory.read_write_ne _ _ (by decide),
    Memory.read_write_same hwf]

theorem Memory.alarmWritten_control2 (hwf : m.wf = true) (h15 : 15 ∉ sp.indices) :
    (m.alarmWritten f1 f2 sp bytes).read 15 = f2 (m.read 15) := by
  rw [Memory.alarmWritten, Memory.read_writeAll_of_not_mem _ h15 bytes (by simp),
    Memory.read_write_same (Memory.wf_write hwf _ _)]

/-- When the Control block's functions change nothing the second time, the second command writes what is there. -/
theorem Memory.alarmWritten_twice (hwf : m.wf = true) (hnodup : sp.indices.Nodup)
    (hlen : bytes.length = sp.indices.length) (h14 : 14 ∉ sp.indices) (h15 : 15 ∉ sp.indices)
    (hf1 : ∀ b, f1 (f1 b) = f1 b) (hf2 : ∀ b, f2 (f2 b) = f2 b) :
    (m.alarmWritten f1 f2 sp bytes).alarmWritten f1 f2 sp bytes = m.alarmWritten f1 f2 sp bytes := by
  have h1 : (m.alarmWritten f1 f2 sp bytes).read 14 = f1 (m.read 14) := Memory.alarmWritten_control1 hwf h14
  have h2 : (m.alarmWritten f1 f2 sp bytes).read 15 = f2 (m.read 15) := Memory.alarmWritten_control2 hwf h15
  have hspan : sp.indices.map (m.alarmWritten f1 f2 sp bytes).read = bytes := Memory.alarmWritten_span hwf hnodup hlen
  have hwf' : (m.alarmWritten f1 f2 sp bytes).wf = true := Memory.wf_alarmWritten hwf
  generalize m.alarmWritten f1 f2 sp bytes = m' at *
  have hc1 : f1 (m'.read 14) = m'.read 14 := by rw [h1, hf1]
  have hc2 : f2 (m'.read 15) = m'.read 15 := by rw [h2, hf2]
  rw [Memory.alarmWritten, hc1, hc2, Memory.write_read_self hwf', Memory.write_read_self hwf', ← hspan,
    Memory.writeAll_map_read hwf']

theorem State.map_read_afterAlarm (hwf : s.mem.wf = true) (hnodup : sp.indices.Nodup)
    (hlen : bytes.length = sp.indices.length) : sp.indices.map (s.afterAlarm f1 f2 sp bytes).mem.read = bytes :=
  Memory.alarmWritten_span hwf hnodup hlen

theorem State.getXs_afterAlarm (hnodup : sp.indices.Nodup) (hlen : bytes.length = sp.indices.length) :
    (s.afterAlarm f1 f2 sp bytes).getXs sp.indices = bytes :=
  State.getXs_setXs (s.setXs [14, 15] [f1 (s.mem.read 14), f2 (s.mem.read 15)]) hnodup hlen

theorem State.bus_afterAlarm :
    (s.afterAlarm f1 f2 sp bytes).bus.drop s.bus.length = s.alarmTransfers f1 f2 sp bytes := List.drop_left ..

theorem State.issued_afterAlarm : issuedSince s (s.afterAlarm f1 f2 sp bytes) = 3 := by
  simp [issuedSince, State.afterAlarm, State.after, State.alarmTransfers]

/-- The second of two alarm commands issues the transfers of the first but for the bytes of the read. -/
theorem State.alarmTransfers_afterAlarm (h1 : f1 ((s.mem.alarmWritten f1 f2 sp bytes).read 14) = f1 (s.mem.read 14))
    (h2 : f2 ((s.mem.alarmWritten f1 f2 sp bytes).read 15) = f2 (s.mem.read 15)) :
    (s.afterAlarm f1 f2 sp bytes).alarmTransfers f1 f2 sp bytes =
      .rd s.sa 0xE0 2 [(s.mem.alarmWritten f1 f2 sp bytes).read 14, (s.mem.alarmWritten f1 f2 sp bytes).read 15] ::
        (s.alarmTransfers f1 f2 sp bytes).tail := by
  rw [State.alarmTransfers, State.alarmTransfers, List.tail_cons, ← h1, ← h2]
  rfl

end Alarm

/-! ### Disabled twice -/

/-- Clearing a mask's bits twice is clearing them once. -/
theorem clear_twice (b mask : Byte) : b &&& ~~~mask &&& ~~~mask = b &&& ~~~mask := by
  rw [BitVec.and_assoc, BitVec.and_self]

theorem clear_and_mask (b mask : Byte) : b &&& ~~~mask &&& mask = 0 := by
  rw [BitVec.and_assoc, BitVec.and_comm (~~~mask), BitVec.and_not_self]
  exact BitVec.and_zero

/-- R159 for an alarm command whose rewrite of the Control block changes nothing the second time: the second run leaves
the device as the first did and issues the same transfers, but for the bytes read. -/
theorem alarm_twice_static {s : State} {i : Instr} {f1 f2 : Byte → Byte} {sp : Span} {bytes : List Byte}
    (hwf : s.mem.wf = true) (hstatic : staticFor s 6) (hnodup : sp.indices.Nodup)
    (hlen : bytes.length = sp.indices.length) (h14 : 14 ∉ sp.indices) (h15 : 15 ∉ sp.indices)
    (hf1 : ∀ b, f1 (f1 b) = f1 b) (hf2 : ∀ b, f2 (f2 b) = f2 b)
    (hpaths : ∀ t : State, t.inited = s.inited → t.cfg = s.cfg → (t = s ∨ t.getXs sp.indices = bytes) →
      RewritesControlThenAlarm i t f1 f2 sp bytes) :
    ∃ t u, exec i s = .next t ∧ exec i t = .next u ∧ u.mem = t.mem ∧ t.mem.read 14 = f1 (s.mem.read 14) ∧
      t.mem.read 15 = f2 (s.mem.read 15) ∧ sp.indices.map t.mem.read = bytes ∧ issuedSince s t = 3 ∧
      (u.bus.drop t.bus.length).map (fun r => (r.kind, r.wire, r.count)) =
        (t.bus.drop s.bus.length).map (fun r => (r.kind, r.wire, r.count)) ∧
      (u.bus.drop t.bus.length).tail.map (fun r => r.bytes) = (t.bus.drop s.bus.length).tail.map (fun r => r.bytes) := by
  have hfirst := exec_alarm_static (hpaths s rfl rfl (.inl rfl)) fun k hk => hstatic k (by omega)
  have hsecond := exec_alarm_static
    (hpaths (s.afterAlarm f1 f2 sp bytes) rfl rfl (.inr (State.getXs_afterAlarm hnodup hlen)))
    (State.after_static _ _ _ _ _ _ hstatic)
  have h1 : (s.mem.alarmWritten f1 f2 sp bytes).read 14 = f1 (s.mem.read 14) := Memory.alarmWritten_control1 hwf h14
  have h2 : (s.mem.alarmWritten f1 f2 sp bytes).read 15 = f2 (s.mem.read 15) := Memory.alarmWritten_control2 hwf h15
  refine ⟨_, _, hfirst, hsecond, Memory.alarmWritten_twice hwf hnodup hlen h14 h15 hf1 hf2, h1, h2,
    State.map_read_afterAlarm hwf hnodup hlen, State.issued_afterAlarm, ?_⟩
  rw [State.bus_afterAlarm, State.bus_afterAlarm, State.alarmTransfers_afterAlarm (by rw [h1, hf1]) (by rw [h2, hf2])]
  exact ⟨rfl, rfl⟩

/-- Settles O42. -/
theorem disableIsIdempotentOnAStaticDevice : Obligations.DisableIsIdempotentOnAStaticDevice := by
  unfold Obligations.DisableIsIdempotentOnAStaticDevice
  intro s hs hwf hstatic
  constructor
  · obtain ⟨t, u, hst, htu, hmem, hen, hfl, hbytes, hissued, hbus⟩ := alarm_twice_static (i := .dalmclr)
      (f1 := (· &&& ~~~s.cfg.mDale)) (f2 := (· &&& ~~~s.cfg.mDafg)) (sp := .dailyAlarm) (bytes := [0x00, 0x00])
      hwf hstatic (by decide) rfl (by decide) (by decide) (fun b => clear_twice b _) (fun b => clear_twice b _)
      fun t hinited hcfg _ => by
        rw [← hcfg]
        exact (dalmclrDisarmsTheDailyAlarm t (hinited.trans hs)).2
    obtain ⟨hmin, hhour⟩ : t.mem.read 11 = 0x00 ∧ t.mem.read 12 = 0x00 := by simpa [Span.indices] using hbytes
    exact ⟨t, u, hst, htu, hmem, hen ▸ clear_and_mask _ _, hfl ▸ clear_and_mask _ _, hmin, hhour, hissued, hbus⟩
  · obtain ⟨t, u, hst, htu, hmem, hen, hfl, hbytes, hissued, hbus⟩ := alarm_twice_static (i := .walmclr)
      (f1 := (· &&& ~~~s.cfg.mWale)) (f2 := (· &&& ~~~s.cfg.mWafg)) (sp := .weeklyAlarm)
      (bytes := [0x00, 0x00, s.getX 10]) hwf hstatic (by decide) rfl (by decide) (by decide) (fun b => clear_twice b _)
      (fun b => clear_twice b _) fun t hinited hcfg hx => by
        have h10 : t.getX 10 = s.getX 10 := by
          rcases hx with rfl | hx
          · rfl
          · have hx' : t.getX 8 = 0x00 ∧ t.getX 9 = 0x00 ∧ t.getX 10 = s.getX 10 := by
              simpa [State.getXs, Span.indices] using hx
            exact hx'.2.2
        rw [← hcfg, ← h10]
        exact (walmclrDisarmsTheWeeklyAlarm t (hinited.trans hs)).2
    obtain ⟨hmin, hhour, hday⟩ : t.mem.read 8 = 0x00 ∧ t.mem.read 9 = 0x00 ∧ t.mem.read 10 = s.getX 10 := by
      simpa [Span.indices] using hbytes
    exact ⟨t, u, hst, htu, hmem, hen ▸ clear_and_mask _ _, hfl ▸ clear_and_mask _ _, hmin, hhour, hday,
      hmem ▸ hday, hissued, hbus⟩

/-! ### The weekday mask -/

/-- Settles O43: the weekday register and `x[10]` hold the third byte written. -/
theorem weekdayMaskIsKeptOrOverwritten : Obligations.WeekdayMaskIsKeptOrOverwritten := by
  unfold Obligations.WeekdayMaskIsKeptOrOverwritten
  intro s hours minutes wdmask bm bh hs hwf hstatic htime
  obtain ⟨-, hvalid, -⟩ := walmsetArmsTheWeeklyAlarm s hours minutes wdmask hs
  have hpaths := hvalid bm bh htime
  have hexec := exec_alarm_static hpaths hstatic
  refine ⟨_, hexec, ?_⟩
  generalize hday : (if wdmask = 0 then s.getX 10 else wdmask.setWidth 8) = day at *
  generalize htt : s.afterAlarm _ _ _ _ = t
  have hspan : Span.weeklyAlarm.indices.map t.mem.read = [bm, bh, day] := by
    rw [← htt]
    exact State.map_read_afterAlarm (sp := .weeklyAlarm) (bytes := [bm, bh, day]) hwf (by decide) rfl
  have hxs : t.getXs Span.weeklyAlarm.indices = [bm, bh, day] := by
    rw [← htt]
    exact State.getXs_afterAlarm (sp := .weeklyAlarm) (bytes := [bm, bh, day]) (by decide) rfl
  obtain ⟨-, -, hread⟩ : t.mem.read 8 = bm ∧ t.mem.read 9 = bh ∧ t.mem.read 10 = day := by
    simpa [Span.indices] using hspan
  obtain ⟨-, -, hx⟩ : t.getX 8 = bm ∧ t.getX 9 = bh ∧ t.getX 10 = day := by simpa [State.getXs, Span.indices] using hxs
  rw [hread, hx, ← hday]
  refine ⟨fun hzero heq => ?_, fun hzero => if_pos hzero, fun hne => ⟨if_neg hne, if_neg hne⟩⟩
  rw [if_pos hzero, heq]

end Sys2Proof.Machine
end

section
/-! A datetime written and read back on the static device (41_datetime.md R105). -/

namespace Sys2Proof.Machine

/-- A number whose two digits fit under a mask of the low bits is read back through it. -/
theorem bcd2dec_lowBits {n : Int} (k : Nat) (h0 : 0 ≤ n) (h99 : n ≤ 99) (hbits : 16 * (n / 10) + n % 10 < (2 ^ k : Nat))
    (hk : k ≤ 8) : bcd2dec (dec2bcd n &&& BitVec.ofNat 8 (2 ^ k - 1)) = n := by
  obtain ⟨m, rfl⟩ := Int.eq_ofNat_of_zero_le h0
  rw [and_lowBits (by rw [toNat_dec2bcd (by omega)]; omega) hk, bcd2dec_dec2bcd (by omega)]

/-- The 24-hour bit of the hours byte is outside the mask of the hours. -/
theorem hourMask_or (b : Byte) : (b ||| 0x80) &&& 0x3F = b &&& 0x3F := by
  rw [BitVec.and_comm, BitVec.and_or_distrib_left, BitVec.and_comm]
  exact BitVec.or_zero

theorem wdayF_mem (d mo y : Int) : 0 ≤ wdayF d mo y ∧ wdayF d mo y ≤ 6 := by
  rw [wdayF]
  omega

/-- The weekday WRDT writes, supplied or computed, is one of 0 to 6. -/
theorem weekday_mem {wd : Option Int} (h : failsOptional 0 6 wd = false) (d mo y : Int) :
    0 ≤ wd.getD (wdayF d mo y) ∧ wd.getD (wdayF d mo y) ≤ 6 := by
  cases wd with
  | none => exact wdayF_mem d mo y
  | some w => simpa [failsOptional] using h

theorem mem_of_not_failsRequired {lo hi v : Int} (h : failsRequired lo hi (some v) = false) : lo ≤ v ∧ v ≤ hi := by
  simpa [failsRequired] using h

/-- R105 for the bytes: those WRDT writes decode to the fields it was given. -/
theorem dtDec_wrdtBytes (c : Cfg) {se mi h d mo y : Int} {wd : Option Int}
    (hnone : firstFailing (datetimeChecks (some se) (some mi) (some h) (some d) (some mo) (some y) wd) = none) :
    dtDec (wrdtBytes c se mi h d mo y wd) =
      { year := y, month := mo, date := d, weekday := wd.getD (wdayF d mo (c.century + y)), hours := h,
        minutes := mi, seconds := se } := by
  have hall := firstFailing_eq_none hnone
  simp only [datetimeChecks, List.forall_mem_cons] at hall
  obtain ⟨hse, hmi, hh, hd, hmo, hy, hwd, -⟩ := hall
  obtain ⟨hse0, hse59⟩ := mem_of_not_failsRequired hse
  obtain ⟨hmi0, hmi59⟩ := mem_of_not_failsRequired hmi
  obtain ⟨hh0, hh23⟩ := mem_of_not_failsRequired hh
  obtain ⟨hd1, hd31⟩ := mem_of_not_failsRequired hd
  obtain ⟨hmo1, hmo12⟩ := mem_of_not_failsRequired hmo
  obtain ⟨hy0, hy99⟩ := mem_of_not_failsRequired hy
  obtain ⟨hwd0, hwd6⟩ := weekday_mem hwd d mo (c.century + y)
  have hhour : bcd2dec ((dec2bcd h ||| 0x80) &&& 0x3F) = h := by
    rw [hourMask_or]
    exact bcd2dec_lowBits 6 (by omega) (by omega) (by omega) (by decide)
  rw [dtDec, DateTime.mk.injEq]
  exact ⟨bcd2dec_lowBits 8 (by omega) (by omega) (by omega) (by decide),
    bcd2dec_lowBits 5 (by omega) (by omega) (by omega) (by decide),
    bcd2dec_lowBits 6 (by omega) (by omega) (by omega) (by decide),
    bcd2dec_lowBits 3 (by omega) (by omega) (by omega) (by decide), hhour,
    bcd2dec_lowBits 7 (by omega) (by omega) (by omega) (by decide),
    bcd2dec_lowBits 7 (by omega) (by omega) (by omega) (by decide)⟩

/-! ### The two commands -/

theorem exec_rddt_answered {s : State} (hs : s.inited = true) (h0 : (s.upcoming 0).answer = .done) :
    ∃ u, exec .rddt s = .next u ∧
      u.outcomes = s.outcomes ++ [.ok (.dateTime (dtDec (s.readBytes .datetime)))] := by
  refine ⟨_, exec_device (i := .rddt) hs rfl rfl, ?_⟩
  rw [Plan.run_read_done h0, Plan.run_stop, State.getXs_setXs _ (by decide) (by simp [State.readBytes, Span.indices]),
    State.mid_zero]
  simp [State.after]

/-- On the static device WRDT leaves its seven bytes in the seven registers. -/
theorem exec_wrdt_static {s : State} {se mi h d mo y : Int} {wd : Option Int} (hs : s.inited = true)
    (hwf : s.mem.wf = true) (hstatic : staticFor s 3)
    (hnone : firstFailing (datetimeChecks (some se) (some mi) (some h) (some d) (some mo) (some y) wd) = none) :
    ∃ x m ts, exec (.wrdt (some se) (some mi) (some h) (some d) (some mo) (some y) wd) s =
        .next (s.after 3 x m ts (.ok .empty)) ∧
      Span.datetime.indices.map m.read = wrdtBytes s.cfg se mi h d mo y wd := by
  obtain ⟨-, hanswered, -, -, -⟩ := wrdtWritesTheTimeThenClearsVdet.2 s se mi h d mo y wd hs hnone
  refine ⟨_, _, _, hanswered (answered_of_static hstatic), ?_⟩
  rw [hstatic 0 (by decide), hstatic 1 (by decide), hstatic 2 (by decide), Memory.drift_static, Memory.drift_static,
    Memory.drift_static, Memory.writeAll_static]
  have hspan := Memory.map_read_writeAll hwf (as := Span.datetime.indices) (bs := wrdtBytes s.cfg se mi h d mo y wd)
    (by decide) rfl
  refine (List.map_congr_left fun a ha => ?_).trans hspan
  exact Memory.read_write_ne _ _ fun heq => absurd (heq ▸ ha) (by decide)

/-- Settles O28. -/
theorem datetimeRoundTripsOnAStaticDevice : Obligations.DatetimeRoundTripsOnAStaticDevice := by
  unfold Obligations.DatetimeRoundTripsOnAStaticDevice
  intro s se mi h d mo y wd hs hwf hstatic hnone
  obtain ⟨x, m, ts, hwrdt, hbytes⟩ := exec_wrdt_static hs hwf (fun k hk => hstatic k (by omega)) hnone
  have hthen : staticFor (s.after 3 x m ts (.ok .empty)) 1 := State.after_static s 3 x m ts _ hstatic
  obtain ⟨u, hrddt, hu⟩ := exec_rddt_answered (s := s.after 3 x m ts (.ok .empty)) hs
    (answered_of_static hthen 0 (by decide))
  refine ⟨_, u, hwrdt, rfl, hrddt, hu.trans ?_⟩
  have hread : (s.after 3 x m ts (.ok .empty)).readBytes .datetime = wrdtBytes s.cfg se mi h d mo y wd :=
    (State.readBytes_static (hthen 0 (by decide)) .datetime).trans hbytes
  rw [hread, dtDec_wrdtBytes s.cfg hnone]

end Sys2Proof.Machine
end
